-- ==== Sys2Proof/Config.lean ====
section
/-! DEFINITION. The fixed numbers of the part (00 §8) and the bounds of the model's own recursions.
The spec leaves no value undefined, so no free value stands here. -/

namespace Sys2Proof.Config

/-- Lease slots one agent may hold (R24). -/
def quota : Nat := 16

/-- The inrush budget in units (R73). -/
def budget : Nat := 8

/-- The most body bytes of a request frame (R190). -/
def maxRequestBody : Nat := 60

/-- Bits of a tap word: 32 address bits and one parity bit (R98). -/
def tapBits : Nat := 33

/-- Where the count of a WAKE or FAULT notice holds (R129, R130). -/
def countLimit : Nat := 255

/-- Addresses a window may end at: base + length is at most this (R101). -/
def addressSpace : Nat := 4294967296

/-- Managed domains above one another: no walk up the tree is longer (R1; log 15). -/
def treeDepth : Nat := 15

/-- Arrivals that one event can make at one engine: each step of a chain goes one level towards a target
that the chain does not move (R52, R66; log 15). -/
def chainBound : Nat := 4

/-- Grants that one grant event can make: no domain is granted twice in it (R76; log 15). -/
def grantBound : Nat := 15

end Sys2Proof.Config
end

