-- ==== Sys2Proof/Word.lean ====
section
/-! DEFINITION. The byte and the words that the PL416's frames and tap port carry. -/

namespace Sys2Proof

/-- One byte of a frame (R190), and a slot's generation, which counts on from 255 to 0 (00 §6.5). -/
abbrev Byte := BitVec 8

/-- A lease's tag, a label the part stores and reports (R19). -/
abbrev Tag := BitVec 16

/-- A bus address, as a tap word or a window base carries it (R98, R101). -/
abbrev Address := BitVec 32

end Sys2Proof
end

