-- ==== Sys2Proof/Syntax.lean ====
section
/-! DEFINITION. The numbers that name agents, domains, slots, windows and lines, and the ONE inductive of
commands: a constructor for each row of the table of operations and events. -/

namespace Sys2Proof

/-- A0 to A3, and the port each is served by (R187). -/
abbrev Agent := Fin 4

/-- D0 to D15 (R1). -/
abbrev Domain := Fin 16

/-- D1 to D15, the domains that have an engine and a record: the index i stands for D(i+1) (R4, R48). -/
abbrev Managed := Fin 15

/-- Lease table slots 0 to 47 (R19). -/
abbrev SlotId := Fin 48

/-- W0 to W15 (R101). -/
abbrev WindowId := Fin 16

/-- K0 to K7 (R111). -/
abbrev LineId := Fin 8

/-- The commands. A request row stands for the end of an exchange on `port` that carried a good frame with
that request's code, the sequence `seq` and the body `body` (R190, R194). -/
inductive Instr where
  /-- R147 -/ | status (port : Agent) (seq : Byte) (body : List Byte)
  /-- R148 -/ | queryDomain (port : Agent) (seq : Byte) (body : List Byte)
  /-- R150 -/ | queryLease (port : Agent) (seq : Byte) (body : List Byte)
  /-- R152 -/ | listLeases (port : Agent) (seq : Byte) (body : List Byte)
  /-- R155 -/ | acquire (port : Agent) (seq : Byte) (body : List Byte)
  /-- R157 -/ | renew (port : Agent) (seq : Byte) (body : List Byte)
  /-- R159 -/ | modify (port : Agent) (seq : Byte) (body : List Byte)
  /-- R161 -/ | release (port : Agent) (seq : Byte) (body : List Byte)
  /-- R132 -/ | takeNotice (port : Agent) (seq : Byte) (body : List Byte)
  /-- R164 -/ | detach (port : Agent) (seq : Byte) (body : List Byte)
  /-- R173 -/ | defineDomain (port : Agent) (seq : Byte) (body : List Byte)
  /-- R174 -/ | defineWake (port : Agent) (seq : Byte) (body : List Byte)
  /-- R175 -/ | setWindow (port : Agent) (seq : Byte) (body : List Byte)
  /-- R176 -/ | clearWindow (port : Agent) (seq : Byte) (body : List Byte)
  /-- R177 -/ | setWakeEnable (port : Agent) (seq : Byte) (body : List Byte)
  /-- R178 -/ | queryWake (port : Agent) (seq : Byte) (body : List Byte)
  /-- R180 -/ | start (port : Agent) (seq : Byte) (body : List Byte)
  /-- R181 -/ | restart (port : Agent) (seq : Byte) (body : List Byte)
  /-- R184 -/ | revoke (port : Agent) (seq : Byte) (body : List Byte)
  /-- R185 -/ | evict (port : Agent) (seq : Byte) (body : List Byte)
  /-- R186 -/ | clearFault (port : Agent) (seq : Byte) (body : List Byte)
  /-- R141: a good frame whose code names no request. -/
  | unknownRequest (port : Agent) (seq code : Byte) (body : List Byte)
  /-- R188, R192: an exchange in which `bits` were clocked in, the first first, and whose whole bytes are a bad frame. -/
  | badFrame (port : Agent) (bits : List Bool)
  /-- R193: a good frame under the port's last sequence. -/
  | retransmission (port : Agent) (seq code : Byte) (body : List Byte)
  /-- R188, R189: an exchange in which `bits` were clocked in, its first whole byte absent, 0x00 or 0xFF. -/
  | idleExchange (port : Agent) (bits : List Bool)
  /-- R98: the bits taken between the assertion and the fall of TFRM, the first taken first. -/
  | tapWord (bits : List Bool)
  /-- R114: the sampled level of the line changes to `level`. -/
  | lineEvent (line : LineId) (level : Bool)
  /-- R57, R67 -/ | pgoodAsserted (d : Managed)
  /-- R67 -/ | pgoodDeasserted (d : Managed)
  /-- R59, R68 -/ | ckokAsserted (d : Managed)
  /-- R68 -/ | ckokDeasserted (d : Managed)
  /-- R30, R51 -/ | tick
  /-- R30, R45: the expiry of the lease in `slot` at this tick. -/ | leaseExpiry (slot : SlotId)
  /-- R57 -/ | railUpExpiry (d : Managed)
  /-- R58 -/ | settleExpiry (d : Managed)
  /-- R59 -/ | clockUpExpiry (d : Managed)
  /-- R60 -/ | boostUpExpiry (d : Managed)
  /-- R61 -/ | boostDownExpiry (d : Managed)
  /-- R64 -/ | drainEnd (d : Managed)
  /-- R88 -/ | faultDrainExpiry (d : Managed)
  /-- R53 -/ | stepBegin (d : Managed)
  /-- R76 -/ | rampGrant
  /-- R32 -/ | levelReachedReport (d : Managed)
  /-- R169: RESETN has been low for 2 REFCLK cycles. -/ | partReset
  /-- R169: RESETN is released; the operands say which chip selects and whether TFRM stand asserted then. -/
  | partResetRelease (chipSelects : Vector Bool 4) (tfrm : Bool)
  /-- R196 -/ | chipSelectDeasserted (port : Agent)
  /-- R100 -/ | tfrmDeasserted
  deriving DecidableEq, Repr

end Sys2Proof
end

