-- ==== Sys2Proof/Machine/Frames.lean ====
section
/-! DEFINITION. Request codes, the check byte, and what the bits of an exchange are (R188 to R191, R197). -/

namespace Sys2Proof.Machine

/-- The requests by name (R141). -/
inductive Request where
  | status | queryDomain | queryLease | listLeases | acquire | renew | modify | release | takeNotice | detach
  | defineDomain | defineWake | setWindow | clearWindow | setWakeEnable | queryWake | start | restart
  | revoke | evict | clearFault
  deriving DecidableEq, Repr

/-- R197, the request codes. -/
def Request.code : Request → Byte
  | .status => 0x01 | .queryDomain => 0x02 | .queryLease => 0x03 | .listLeases => 0x04 | .acquire => 0x05
  | .renew => 0x06 | .modify => 0x07 | .release => 0x08 | .takeNotice => 0x09 | .detach => 0x0A
  | .defineDomain => 0x20 | .defineWake => 0x21 | .setWindow => 0x22 | .clearWindow => 0x23
  | .setWakeEnable => 0x24 | .queryWake => 0x25 | .start => 0x26 | .restart => 0x27 | .revoke => 0x28
  | .evict => 0x29 | .clearFault => 0x2A

/-- Every request. -/
def allRequests : List Request :=
  [.status, .queryDomain, .queryLease, .listLeases, .acquire, .renew, .modify, .release, .takeNotice, .detach,
   .defineDomain, .defineWake, .setWindow, .clearWindow, .setWakeEnable, .queryWake, .start, .restart,
   .revoke, .evict, .clearFault]

/-- The request a code names (R197), or none (R141). -/
def Request.ofCode (code : Byte) : Option Request :=
  allRequests.find? fun r => r.code = code

/-- R191, one shift of the check register. -/
def crcShift (reg : Byte) : Byte :=
  if reg.msb then (reg <<< 1) ^^^ 0x07#8 else reg <<< 1

/-- R191, one covered byte. -/
def crcByte (reg byte : Byte) : Byte :=
  crcShift (crcShift (crcShift (crcShift (crcShift (crcShift (crcShift (crcShift (reg ^^^ byte))))))))

/-- R191, the check byte of the covered bytes. -/
def crc8 (covered : List Byte) : Byte :=
  covered.foldl crcByte 0

/-- R188: the eight bits of a byte, the most significant first. -/
def byteBits (b : Byte) : List Bool := List.ofFn fun i : Fin 8 => b.getMsbD i.val

/-- R188: bits as a number, the most significant first. -/
def bitsValue (bits : List Bool) : Nat := bits.foldl (fun n b => 2 * n + b.toNat) 0

/-- R188: each group of eight clock cycles is one byte, the most significant bit first. A final group of fewer than eight
is not a byte, and its bits are discarded. -/
def wholeBytes : List Bool → List Byte
  | b0 :: b1 :: b2 :: b3 :: b4 :: b5 :: b6 :: b7 :: rest =>
    BitVec.ofNat 8 (bitsValue [b0, b1, b2, b3, b4, b5, b6, b7]) :: wholeBytes rest
  | _ => []

/-- What R189 and R190 find an exchange to be, from the whole bytes received. -/
inductive ExchangeClass where
  | idle
  /-- a bad frame, with the sequence echo of its BAD_FRAME reply (R192) -/
  | bad (echo : Byte)
  | good (seq code : Byte) (body : List Byte)
  deriving DecidableEq, Repr

/-- R190: the bytes after the marker, read as sequence, request code, body length, body and check byte. -/
def classifyFrame : List Byte → ExchangeClass
  | seq :: code :: len :: rest =>
    if Config.maxRequestBody < len.toNat then .bad seq
    else if rest.length < len.toNat + 1 then .bad seq
    else if crc8 (seq :: code :: len :: rest.take len.toNat) = rest.getD len.toNat 0 then
      .good seq code (rest.take len.toNat)
    else .bad seq
  | short => .bad (short.headD 0)

/-- R189: the first whole byte decides. -/
def classifyExchange : List Byte → ExchangeClass
  | [] => .idle
  | first :: rest =>
    if first = 0x00#8 ∨ first = 0xFF#8 then .idle
    else if first = 0xA5#8 then classifyFrame rest
    else .bad (rest.headD 0)

/-- R190: a request frame as an agent builds it. -/
def requestFrame (seq code : Byte) (body : List Byte) : List Byte :=
  let covered := seq :: code :: BitVec.ofNat 8 body.length :: body
  0xA5#8 :: (covered ++ [crc8 covered])

/-- R98, R99: the address of a good tap word; none for a word to discard. The first bit taken is address bit 31. -/
def tapAddress (bits : List Bool) : Option Address :=
  if bits.length = Config.tapBits ∧ bits.count true % 2 = 1 then
    some (BitVec.ofNat 32 (bitsValue (bits.take 32)))
  else none

end Sys2Proof.Machine
end

