-- ==== Sys2Proof/WellFormed.lean ====
section
/-! DEFINITION. Which terms of Instr name the command of their row. An exchange or frame whose bits belong to
another row still has the meaning those bits have (log 10). -/

namespace Sys2Proof

open Machine

/-- A body that a frame can declare (R190). -/
def bodyFits (body : List Byte) : Bool :=
  body.length ≤ Config.maxRequestBody

/-- R192: the class of a bad frame. -/
def isBadExchange : ExchangeClass → Bool
  | .bad _ => true
  | .idle => false
  | .good _ _ _ => false

/-- The command's operands fit its row. -/
def Instr.wellFormed : Instr → Bool
  | .status _ _ body => bodyFits body
  | .queryDomain _ _ body => bodyFits body
  | .queryLease _ _ body => bodyFits body
  | .listLeases _ _ body => bodyFits body
  | .acquire _ _ body => bodyFits body
  | .renew _ _ body => bodyFits body
  | .modify _ _ body => bodyFits body
  | .release _ _ body => bodyFits body
  | .takeNotice _ _ body => bodyFits body
  | .detach _ _ body => bodyFits body
  | .defineDomain _ _ body => bodyFits body
  | .defineWake _ _ body => bodyFits body
  | .setWindow _ _ body => bodyFits body
  | .clearWindow _ _ body => bodyFits body
  | .setWakeEnable _ _ body => bodyFits body
  | .queryWake _ _ body => bodyFits body
  | .start _ _ body => bodyFits body
  | .restart _ _ body => bodyFits body
  | .revoke _ _ body => bodyFits body
  | .evict _ _ body => bodyFits body
  | .clearFault _ _ body => bodyFits body
  | .unknownRequest _ _ code body => bodyFits body && (Request.ofCode code).isNone
  | .badFrame _ bits => isBadExchange (classifyExchange (wholeBytes bits))
  | .retransmission _ seq _ body => bodyFits body && seq != 0#8
  | .idleExchange _ bits => classifyExchange (wholeBytes bits) == .idle
  | .tapWord _ => true
  | .lineEvent _ _ => true
  | .pgoodAsserted _ => true
  | .pgoodDeasserted _ => true
  | .ckokAsserted _ => true
  | .ckokDeasserted _ => true
  | .tick => true
  | .leaseExpiry _ => true
  | .railUpExpiry _ => true
  | .settleExpiry _ => true
  | .clockUpExpiry _ => true
  | .boostUpExpiry _ => true
  | .boostDownExpiry _ => true
  | .drainEnd _ => true
  | .faultDrainExpiry _ => true
  | .stepBegin _ => true
  | .rampGrant => true
  | .levelReachedReport _ => true
  | .partReset => true
  | .partResetRelease _ _ => true
  | .chipSelectDeasserted _ => true
  | .tfrmDeasserted => true

end Sys2Proof
end

