-- ==== Sys2Proof/Decode.lean ====
section
/-! DEFINITION. The table of operations gives no row any bits, so no word spells a command (log 16). -/

namespace Sys2Proof

/-- The command that a word spells by the table's bits: none, since no row has bits (log 16). -/
def decodeTableWord (_nbits _w : Nat) : Option Instr := none

end Sys2Proof
end

