-- ==== Sys2Proof/Machine/State.lean ====
section
/-! DEFINITION. Everything the spec gives the part, as plain data; the reasons a step can stop; the part after reset. -/

namespace Sys2Proof.Machine

/-- The four levels, in their order (00 §6.3). -/
inductive Level where
  | off | retain | run | boost
  deriving DecidableEq, Repr

/-- The thirteen engine states (R48). -/
inductive EngineState where
  | off | waitParent | waitBudget | railUp | settle | retain | clockUp | run
  | boostUp | boost | boostDown | draining | fault
  deriving DecidableEq, Repr

/-- The five fault causes (R82). -/
inductive FaultCause where
  | riseTimeout | pgoodLost | clockTimeout | clockLost | stuckRail
  deriving DecidableEq, Repr

/-- Why a lease ended (R19, R36). -/
inductive EndCause where
  | expired | idle | revoked | fault | parentFault
  deriving DecidableEq, Repr

/-- The result of a wake claim (R117). -/
inductive WakeOutcome where
  | none | renewed | madePending | madeHeld | notMadeQuota | notMadeTable | notMadeFault
  deriving DecidableEq, Repr

/-- The edges a wake line selects (R111). -/
inductive Edge where
  | rise | fall | both
  deriving DecidableEq, Repr

/-- The part states (R167). -/
inductive PartState where
  | setup | run | stopping
  deriving DecidableEq, Repr

/-- The reply statuses (R197). -/
inductive Status where
  | ok | noReply | badFrame | unknownRequest | badLength | badValue | notRunning | notInSetup
  | notSupervisor | noDomain | badLevel | domainFault | quota | tableFull | staleHandle | notHolder
  | wrongKind | noWindow | windowInUse | stillDraining | stillPowered | badConfig | leaseEnded | notFaulted
  deriving DecidableEq, Repr

/-- A defined domain's configuration record (R4). An undefined domain has none. -/
structure DomainRecord where
  parent : Domain
  floor : Level
  maxLevel : Level
  weight : Nat
  pgoodTimeout : Nat
  settle : Nat
  /-- present with max level RUN or BOOST -/
  clockTimeout : Option Nat
  /-- present with max level BOOST -/
  boostSettle : Option Nat
  drain : Nat
  deriving DecidableEq, Repr

/-- What an engine holds beside the record (R48). -/
structure Engine where
  state : EngineState
  /-- 0: expired at a tick, its expiry event not yet taken (log 6). -/
  timer : Option Nat
  cause : Option FaultCause
  drainComplete : Bool
  deriving DecidableEq, Repr

/-- The name of a lease (R22). -/
structure Handle where
  slot : SlotId
  generation : Byte
  deriving DecidableEq, Repr

/-- A lease's kind with the fields only that kind has (R19, R20). -/
inductive Term where
  | timed (duration : Nat)
  | watched (idlePeriod : Nat) (window : WindowId)
  | standing
  deriving DecidableEq, Repr

/-- Who made a lease (R19). -/
inductive Origin where
  | request
  | line (k : LineId)
  deriving DecidableEq, Repr

/-- R45: how a countdown stands to the coming tick. The mark is the model's own (DESIGN CHOICE, log 22): it lets one queue
of commands say whether a loading or an expiry at the same tick came first. -/
inductive SinceTick where
  /-- not loaded since the last tick, or loaded ahead of a LEASE_EXPIRY as below -/
  | untouched
  /-- loaded since the last tick and the last LEASE_EXPIRY; no expiry was due when it was first loaded -/
  | loaded
  /-- loaded since the last tick, ahead of an expiry that was due at the coming tick -/
  | ahead
  /-- loaded so, and the expiry has then been taken and ended nothing -/
  | passed
  deriving DecidableEq, Repr

/-- A countdown (R19, R30): the milliseconds left, and the model's own mark. -/
structure Countdown where
  left : Nat
  since : SinceTick
  deriving DecidableEq, Repr

/-- The states of a slot that is not FREE, with the fields only that state has (R19, R21). -/
inductive LeaseState where
  | pending
  /-- the countdown is present for TIMED and WATCHED -/
  | held (countdown : Option Countdown)
  | ended (cause : EndCause)
  deriving DecidableEq, Repr

/-- A lease record (R19). -/
structure Lease where
  holder : Agent
  domain : Managed
  term : Term
  wanted : Level
  granted : Option Level
  state : LeaseState
  tag : Tag
  origin : Origin
  deriving DecidableEq, Repr

/-- One slot: its generation, and its lease unless it is FREE (R19). -/
structure Slot where
  generation : Byte
  lease : Option Lease
  deriving DecidableEq, Repr

/-- A defined window's range (R101). -/
structure WindowRange where
  base : Address
  length : Nat
  deriving DecidableEq, Repr

/-- A window table entry (R101): undefined when it has no range. -/
structure Window where
  range : Option WindowRange
  users : Nat
  deriving DecidableEq, Repr

/-- A wake line's lease template (R111). -/
structure Template where
  domain : Managed
  level : Level
  duration : Nat
  deriving DecidableEq, Repr

/-- A wake record (R111) and its detector's baseline, present while the detector is active (R114). -/
structure WakeLine where
  enabled : Bool
  edge : Edge
  agent : Agent
  home : Domain
  template : Option Template
  link : Option Handle
  baseline : Option Bool
  deriving DecidableEq, Repr

/-- A notice (R125). -/
inductive Notice where
  | granted (handle : Handle) (level : Level)
  | ended (handle : Handle) (cause : EndCause)
  | wake (line : LineId) (count : Nat) (outcome : WakeOutcome)
  | fault (domain : Managed) (cause : FaultCause) (count : Nat)
  deriving DecidableEq, Repr

/-- What the decoder answers: a status and a body (R139, R200). -/
structure Reply where
  status : Status
  body : List Byte
  deriving DecidableEq, Repr

/-- A port's held reply (R187, R194). -/
structure HeldReply where
  echo : Byte
  status : Status
  body : List Byte
  deriving DecidableEq, Repr

/-- An agent port (R187), and whether it still waits to see its chip select deasserted after a reset (R196). -/
structure Port where
  held : HeldReply
  lastSeq : Option Byte
  awaitsDeselect : Bool
  deriving DecidableEq, Repr

/-- The five outputs of a domain (R49); true is asserted. -/
structure Outputs where
  railen : Bool
  drst : Bool
  iso : Bool
  ckrq : Bool
  vsel : Bool
  deriving DecidableEq, Repr

/-- The output lines by name. -/
inductive OutputLine where
  | railen | drst | iso | ckrq | vsel
  deriving DecidableEq, Repr

/-- One change at a domain output pin (R50). -/
structure PinChange where
  domain : Managed
  line : OutputLine
  asserted : Bool
  deriving DecidableEq, Repr

/-- The machine stops with a fault. The part has no such stop: a domain's failure is state (R82) and a refused
request is answered with a status (R140), so nobody raises one and there is no constructor. -/
inductive Fault where
  deriving DecidableEq, Repr

/-- A step refused for want of a meaning. -/
inductive Refusal where
  /-- Raised by an arm of exec for a command that has no meaning yet; safe, since nothing is proved of it. -/
  | notModelled (mnemonic : String)
  deriving DecidableEq, Repr

/-- The whole part. -/
structure State where
  /-- part control's item (R167) -/
  partState : PartState
  /-- a part reset has been taken and RESETN is not yet released (R169) -/
  resetHeld : Bool
  /-- the configuration records of D1 to D15 (R4) -/
  records : Vector (Option DomainRecord) 15
  /-- the engines E1 to E15 (R48) -/
  engines : Vector Engine 15
  /-- the level-reached reports not yet taken by the lease table (R52) -/
  reports : Vector (Option Level) 15
  /-- the lease table (R19) -/
  slots : Vector Slot 48
  /-- the domains' lease lists, oldest first (R25) -/
  lists : Vector (List SlotId) 15
  /-- the ramp arbiter's free units (R72) -/
  freeUnits : Nat
  /-- the ramp queue, its head first (R72) -/
  rampQueue : List Managed
  /-- the window table (R101) -/
  windows : Vector Window 16
  /-- the tap receiver takes no bits until it sees TFRM deasserted (R100) -/
  tapAwaits : Bool
  /-- the wake records and detectors (R111) -/
  wakes : Vector WakeLine 8
  /-- the notice queues, the head first (R124) -/
  queues : Vector (List Notice) 4
  /-- the agent ports (R187) -/
  ports : Vector Port 4
  /-- the level at each PGOOD pin, true while asserted (R67) -/
  pgood : Vector Bool 15
  /-- the level at each CKOK pin, true while asserted (R68) -/
  ckok : Vector Bool 15
  /-- the sampled level of each wake line (R114) -/
  lines : Vector Bool 8
  /-- the changes of the domain output pins, oldest first: the model's own record of R50, R76 and R85 (log 8) -/
  pinLog : List PinChange
  /-- the commands waiting, first in first out: the model's own (log 3) -/
  pending : List Instr
  deriving DecidableEq, Repr

/-- An engine after a part reset (R48). -/
def Engine.reset : Engine := { state := .off, timer := none, cause := none, drainComplete := false }

/-- A wake record and detector after a part reset (R111). -/
def WakeLine.reset : WakeLine :=
  { enabled := false, edge := .rise, agent := 0, home := 0, template := none, link := none, baseline := none }

/-- A port after a part reset (R187), not yet sure of its chip select (R196). -/
def Port.reset : Port :=
  { held := { echo := 0, status := .noReply, body := [] }, lastSeq := none, awaitsDeselect := true }

/-- The part right after a part reset, RESETN released (R169; log 1). The levels of the input pins are the
model's choice (log 2). -/
def State.reset : State where
  partState := .setup
  resetHeld := false
  records := Vector.replicate 15 none
  engines := Vector.replicate 15 Engine.reset
  reports := Vector.replicate 15 none
  slots := Vector.replicate 48 { generation := 0, lease := none }
  lists := Vector.replicate 15 []
  freeUnits := Config.budget
  rampQueue := []
  windows := Vector.replicate 16 { range := none, users := 0 }
  tapAwaits := true
  wakes := Vector.replicate 8 WakeLine.reset
  queues := Vector.replicate 4 []
  ports := Vector.replicate 4 Port.reset
  pgood := Vector.replicate 15 false
  ckok := Vector.replicate 15 false
  lines := Vector.replicate 8 false
  pinLog := []
  pending := []

end Sys2Proof.Machine
end

