-- ==== Sys2Proof/Machine/Ops.lean ====
section
/-! DEFINITION. The named reads and writes of State, the level order, and posting and removing notices. -/

namespace Sys2Proof.Machine

/-! ### Numbers of domains -/

/-- D1 to D15 in ascending order. -/
def allManaged : List Managed := [0, 1, 2, 3, 4, 5, 6, 7, 8, 9, 10, 11, 12, 13, 14]

/-- D15 down to D1. -/
def descendingManaged : List Managed := [14, 13, 12, 11, 10, 9, 8, 7, 6, 5, 4, 3, 2, 1, 0]

/-- Slots 0 to 47 in ascending order. -/
def allSlots : List SlotId :=
  [0, 1, 2, 3, 4, 5, 6, 7, 8, 9, 10, 11, 12, 13, 14, 15, 16, 17, 18, 19, 20, 21, 22, 23,
   24, 25, 26, 27, 28, 29, 30, 31, 32, 33, 34, 35, 36, 37, 38, 39, 40, 41, 42, 43, 44, 45, 46, 47]

/-- K0 to K7 in ascending order. -/
def allLines : List LineId := [0, 1, 2, 3, 4, 5, 6, 7]

/-- The domain number of a managed domain. -/
def managedDomain (d : Managed) : Domain := d.succ

/-- The managed domain of a domain number; none for D0, which has no engine and no record (R11). -/
def asManaged (d : Domain) : Option Managed :=
  if h : d = 0 then none else some (d.pred h)

/-! ### Levels -/

/-- 00 §6.3, the level's number. -/
def Level.num : Level → Nat
  | .off => 0
  | .retain => 1
  | .run => 2
  | .boost => 3

/-- The lower of two levels. -/
def Level.lower (a b : Level) : Level := if a.num ≤ b.num then a else b

/-- The greater of two levels. -/
def Level.higher (a b : Level) : Level := if a.num ≤ b.num then b else a

/-- 00 §6.3: "The greatest of no levels is OFF." -/
def Level.greatest : List Level → Level
  | [] => .off
  | a :: rest => Level.higher a (Level.greatest rest)

/-- The engine state that stands for a level (R2). -/
def Level.engineState : Level → EngineState
  | .off => .off
  | .retain => .retain
  | .run => .run
  | .boost => .boost

/-! ### Reads -/

/-- The configuration record of a managed domain, none while it is undefined (R4). -/
def State.record (s : State) (d : Managed) : Option DomainRecord := s.records[d]

/-- The engine of a managed domain (R48). -/
def State.engine (s : State) (d : Managed) : Engine := s.engines[d]

/-- The report of the domain that waits for the lease table (R52). -/
def State.report (s : State) (d : Managed) : Option Level := s.reports[d]

/-- A slot of the lease table (R19). -/
def State.slot (s : State) (i : SlotId) : Slot := s.slots[i]

/-- The lease in a slot, none while it is FREE. -/
def State.lease (s : State) (i : SlotId) : Option Lease := (s.slot i).lease

/-- The domain's lease list (R25). -/
def State.list (s : State) (d : Managed) : List SlotId := s.lists[d]

/-- A window table entry (R101). -/
def State.window (s : State) (w : WindowId) : Window := s.windows[w]

/-- A wake record and its detector (R111). -/
def State.wake (s : State) (k : LineId) : WakeLine := s.wakes[k]

/-- An agent's notice queue (R124). -/
def State.queue (s : State) (a : Agent) : List Notice := s.queues[a]

/-- An agent port (R187). -/
def State.port (s : State) (p : Agent) : Port := s.ports[p]

/-! ### Writes -/

def State.setRecord (d : Managed) (r : Option DomainRecord) (s : State) : State :=
  { s with records := s.records.set d r }

def State.setEngine (d : Managed) (e : Engine) (s : State) : State :=
  { s with engines := s.engines.set d e }

def State.setReport (d : Managed) (r : Option Level) (s : State) : State :=
  { s with reports := s.reports.set d r }

def State.setSlot (i : SlotId) (x : Slot) (s : State) : State :=
  { s with slots := s.slots.set i x }

def State.setList (d : Managed) (l : List SlotId) (s : State) : State :=
  { s with lists := s.lists.set d l }

def State.setWindow (w : WindowId) (x : Window) (s : State) : State :=
  { s with windows := s.windows.set w x }

def State.setWake (k : LineId) (x : WakeLine) (s : State) : State :=
  { s with wakes := s.wakes.set k x }

def State.setQueue (a : Agent) (q : List Notice) (s : State) : State :=
  { s with queues := s.queues.set a q }

def State.setPort (p : Agent) (x : Port) (s : State) : State :=
  { s with ports := s.ports.set p x }

/-- The engine goes to a state with the timer that state has; cause and drain-complete flag stay. -/
def State.moveEngine (d : Managed) (st : EngineState) (timer : Option Nat) (s : State) : State :=
  s.setEngine d { s.engine d with state := st, timer := timer }

/-- The lease in slot i is rewritten; the generation stays (R23). -/
def State.setLease (i : SlotId) (l : Lease) (s : State) : State :=
  s.setSlot i { s.slot i with lease := some l }

/-- The handle that names the lease in slot i (R22). -/
def State.handle (s : State) (i : SlotId) : Handle :=
  { slot := i, generation := (s.slot i).generation }

/-- R22: the lease a handle names, none for a stale handle. -/
def State.named (s : State) (h : Handle) : Option Lease :=
  if (s.slot h.slot).generation = h.generation then s.lease h.slot else none

/-! ### Notices -/

/-- A count that holds at 255 (R129, R130). -/
def raiseCount (n : Nat) : Nat := if n < Config.countLimit then n + 1 else n

/-- R127, R129, R130: the queued notice after a post of the same kind and identity merges into it; none when the
post does not merge into it. An ENDED post never merges (R128). -/
def Notice.merge (post queued : Notice) : Option Notice :=
  match post, queued with
  | .granted h level, .granted h' _ => if h.slot = h'.slot then some (.granted h' level) else none
  | .wake k _ outcome, .wake k' count _ => if k = k' then some (.wake k' (raiseCount count) outcome) else none
  | .fault d cause _, .fault d' _ count => if d = d' then some (.fault d' cause (raiseCount count)) else none
  | _, _ => none

/-- R126: a post merges in place or joins the tail. -/
def postTo (post : Notice) : List Notice → List Notice
  | [] => [post]
  | q :: rest =>
    match post.merge q with
    | some merged => merged :: rest
    | none => q :: postTo post rest

/-- The slot a notice concerns. -/
def Notice.slot? : Notice → Option SlotId
  | .granted h _ => some h.slot
  | .ended h _ => some h.slot
  | .wake _ _ _ => none
  | .fault _ _ _ => none

/-- R126: a notice is posted to an agent. -/
def State.post (a : Agent) (n : Notice) (s : State) : State :=
  s.setQueue a (postTo n (s.queue a))

/-- R133: every notice of a slot leaves the holder's queue. -/
def State.purge (a : Agent) (i : SlotId) (s : State) : State :=
  s.setQueue a ((s.queue a).filter fun n => n.slot? ≠ some i)

/-- R127: a queued GRANTED notice of a slot takes a new level in its place. -/
def Notice.relevel (i : SlotId) (level : Level) (n : Notice) : Notice :=
  match n with
  | .granted h old => if h.slot = i then .granted h level else .granted h old
  | .ended h cause => .ended h cause
  | .wake k count outcome => .wake k count outcome
  | .fault d cause count => .fault d cause count

/-- R127: MODIFY hands the new granted level to the holder's queue. -/
def State.relevelQueued (a : Agent) (i : SlotId) (level : Level) (s : State) : State :=
  s.setQueue a ((s.queue a).map (Notice.relevel i level))

end Sys2Proof.Machine
end

