-- ==== Sys2Proof/Machine/Flags.lean ====
section
/-! DEFINITION. What the part derives and does not store: the tree, assured and target levels, outputs, attention,
counts, and which events are due. -/

namespace Sys2Proof.Machine

/-! ### The domain tree (R1) -/

/-- R1: a domain number is D0 or a defined domain. -/
def State.defined (s : State) (d : Domain) : Bool :=
  match asManaged d with
  | some m => (s.record m).isSome
  | none => true

/-- R1: the parent and the floor of a defined domain, which has no place in the tree until its parent is defined. A record
whose parent is not lower than the domain has none either; DEFINE_DOMAIN never writes one (R172; log 14). -/
def State.place (s : State) (d : Managed) : Option (Domain × Level) :=
  match s.record d with
  | some r => if r.parent.val ≤ d.val ∧ s.defined r.parent = true then some (r.parent, r.floor) else none
  | none => none

/-- The parent when it is a managed domain. -/
def State.parent? (s : State) (d : Managed) : Option Managed :=
  match s.place d with
  | some (p, _) => asManaged p
  | none => none

/-- The first n managed ancestors on the way from d to D0. -/
def State.ancestorsWithin (s : State) : Nat → Managed → List Managed
  | 0, _ => []
  | n + 1, d =>
    match s.parent? d with
    | some p => p :: s.ancestorsWithin n p
    | none => []

/-- R1: the managed ancestors of d, the nearest first. -/
def State.ancestors (s : State) (d : Managed) : List Managed :=
  s.ancestorsWithin Config.treeDepth d

/-- e is a descendant of d (00 §6.2). -/
def State.below (s : State) (d e : Managed) : Bool :=
  (s.ancestors e).contains d

/-- R1: the children of a domain in ascending order, each with its floor. -/
def State.children (s : State) (p : Domain) : List (Managed × Level) :=
  allManaged.filterMap fun c =>
    match s.place c with
    | some (q, floor) => if q = p then some (c, floor) else none
    | none => none

/-- R14, R91: the domain or an ancestor of it is in FAULT. -/
def State.faultAtOrAbove (s : State) (d : Managed) : Bool :=
  (s.engine d).state == .fault || (s.ancestors d).any fun a => (s.engine a).state == .fault

/-! ### Assured and target levels -/

/-- R10, the assured level of an engine state. -/
def EngineState.assured : EngineState → Level
  | .off => .off
  | .waitParent => .off
  | .waitBudget => .off
  | .railUp => .off
  | .settle => .off
  | .retain => .retain
  | .clockUp => .retain
  | .run => .run
  | .boostUp => .run
  | .boost => .boost
  | .boostDown => .run
  | .draining => .off
  | .fault => .off

/-- R10 for a managed domain, R11 for D0. -/
def State.assured (s : State) (d : Domain) : Level :=
  match asManaged d with
  | some m => (s.engine m).state.assured
  | none => .boost

/-- The assured level of a managed domain. -/
def State.assuredOf (s : State) (d : Managed) : Level := (s.engine d).state.assured

/-- R13, second case: the engine is neither OFF nor in FAULT with its drain complete. -/
def Engine.up (e : Engine) : Bool :=
  match e.state with
  | .off => false
  | .fault => !e.drainComplete
  | _ => true

/-- R14: the wanted levels of the live leases on d, which are those of its list (R25). -/
def State.wantedLevels (s : State) (d : Managed) : List Level :=
  (s.list d).filterMap fun i => (s.lease i).map Lease.wanted

/-- R13, R14: the target level, reading at most n levels of the tree downwards. -/
def State.targetWithin (s : State) : Nat → Managed → Level
  | 0, _ => .off
  | n + 1, d =>
    if s.faultAtOrAbove d then .off
    else Level.greatest (s.wantedLevels d ++
      ((s.children (managedDomain d)).filter fun c => s.targetWithin n c.1 != .off || (s.engine c.1).up).map Prod.snd)

/-- R14: the target level of a managed domain, derived anew wherever it is read (R16). -/
def State.target (s : State) (d : Managed) : Level := s.targetWithin Config.treeDepth d

/-- R13: a child holds its parent. -/
def State.holds (s : State) (c : Managed) : Bool :=
  s.target c != .off || (s.engine c).up

/-! ### Outputs and inputs -/

/-- The outputs of an unpowered domain (R2, R3). -/
def Outputs.off : Outputs := { railen := false, drst := true, iso := true, ckrq := false, vsel := false }

/-- R49, the outputs of each engine state. -/
def EngineState.outputs : EngineState → Outputs
  | .off => Outputs.off
  | .waitParent => Outputs.off
  | .waitBudget => Outputs.off
  | .railUp => { railen := true, drst := true, iso := true, ckrq := false, vsel := false }
  | .settle => { railen := true, drst := true, iso := true, ckrq := false, vsel := false }
  | .retain => { railen := true, drst := false, iso := true, ckrq := false, vsel := false }
  | .clockUp => { railen := true, drst := false, iso := true, ckrq := true, vsel := false }
  | .run => { railen := true, drst := false, iso := false, ckrq := true, vsel := false }
  | .boostUp => { railen := true, drst := false, iso := false, ckrq := true, vsel := true }
  | .boost => { railen := true, drst := false, iso := false, ckrq := true, vsel := true }
  | .boostDown => { railen := true, drst := false, iso := false, ckrq := true, vsel := false }
  | .draining => Outputs.off
  | .fault => Outputs.off

/-- R3: the lines that the maximum level leaves unused stay at 0. -/
def Outputs.upTo (maxLevel : Level) (o : Outputs) : Outputs :=
  match maxLevel with
  | .off => { o with ckrq := false, vsel := false }
  | .retain => { o with ckrq := false, vsel := false }
  | .run => { o with vsel := false }
  | .boost => o

/-- R3, R49: the five outputs of a managed domain. -/
def State.outputs (s : State) (d : Managed) : Outputs :=
  match s.record d with
  | some r => (s.engine d).state.outputs.upTo r.maxLevel
  | none => Outputs.off

/-- R3: PGOOD is sampled in a defined domain. -/
def State.pgoodSampled (s : State) (d : Managed) : Bool := (s.record d).isSome

/-- R3: CKOK is sampled in a domain whose maximum level is above RETAIN. -/
def State.ckokSampled (s : State) (d : Managed) : Bool :=
  match s.record d with
  | some r => Level.retain.num < r.maxLevel.num
  | none => false

/-- The engine sees PGOOD asserted. -/
def State.pgoodSeen (s : State) (d : Managed) : Bool := s.pgoodSampled d && s.pgood[d]

/-- The engine sees CKOK asserted. -/
def State.ckokSeen (s : State) (d : Managed) : Bool := s.ckokSampled d && s.ckok[d]

/-- R67: the states in which a PGOOD deassertion is a fault. -/
def EngineState.supervisesPgood : EngineState → Bool
  | .settle => true
  | .retain => true
  | .clockUp => true
  | .run => true
  | .boostUp => true
  | .boost => true
  | .boostDown => true
  | .off => false
  | .waitParent => false
  | .waitBudget => false
  | .railUp => false
  | .draining => false
  | .fault => false

/-- R68: the states in which a CKOK deassertion is a fault. -/
def EngineState.supervisesCkok : EngineState → Bool
  | .run => true
  | .boostUp => true
  | .boost => true
  | .boostDown => true
  | .off => false
  | .waitParent => false
  | .waitBudget => false
  | .railUp => false
  | .settle => false
  | .retain => false
  | .clockUp => false
  | .draining => false
  | .fault => false

/-- R73: the states in which a domain holds its weight. -/
def EngineState.holdsWeight : EngineState → Bool
  | .railUp => true
  | .settle => true
  | .off => false
  | .waitParent => false
  | .waitBudget => false
  | .retain => false
  | .clockUp => false
  | .run => false
  | .boostUp => false
  | .boost => false
  | .boostDown => false
  | .draining => false
  | .fault => false

/-- R4: the domain's weight in its record. -/
def State.weight (s : State) (d : Managed) : Nat :=
  match s.record d with
  | some r => r.weight
  | none => 0

/-- R73: the weight the domain holds now. -/
def State.heldWeight (s : State) (d : Managed) : Nat :=
  if (s.engine d).state.holdsWeight then s.weight d else 0

/-! ### Leases, queues and detectors -/

/-- R21: PENDING and HELD leases are the live leases. -/
def Lease.live (l : Lease) : Bool :=
  match l.state with
  | .pending => true
  | .held _ => true
  | .ended _ => false

/-- The lease in the slot is live. -/
def State.liveAt (s : State) (i : SlotId) : Bool :=
  match s.lease i with
  | some l => l.live
  | none => false

/-- R24: the slots of an agent that are not FREE. -/
def State.slotsOf (s : State) (a : Agent) : List SlotId :=
  allSlots.filter fun i => (s.lease i).any fun l => l.holder == a

/-- The FREE slots in ascending order. -/
def State.freeSlots (s : State) : List SlotId :=
  allSlots.filter fun i => (s.lease i).isNone

/-- R24: the lowest-numbered FREE slot. -/
def State.lowestFree (s : State) : Option SlotId := s.freeSlots.head?

/-- The slots that are not FREE. -/
def State.usedSlots (s : State) : List SlotId :=
  allSlots.filter fun i => (s.lease i).isSome

/-- R29: what a loading loads; a STANDING lease has no countdown. -/
def Term.time : Term → Option Nat
  | .timed duration => some duration
  | .watched idlePeriod _ => some idlePeriod
  | .standing => none

/-- R30: the cause an expiry ends the lease with. A STANDING lease has no countdown to expire. -/
def Term.expiryCause : Term → EndCause
  | .timed _ => .expired
  | .watched _ _ => .idle
  | .standing => .expired

/-- R135: the attention output is asserted while the queue holds an entry. -/
def State.attention (s : State) (a : Agent) : Bool := !(s.queue a).isEmpty

/-- R202: the level at the ATN pin, low while asserted. -/
def State.atnPin (s : State) (a : Agent) : Bool := !s.attention a

/-- R202: the level at the DRST pin, low while asserted. -/
def State.drstPin (s : State) (d : Managed) : Bool := !(s.outputs d).drst

/-- R202: the level at each output pin of a domain; all but DRST are high while asserted. -/
def State.domainPin (s : State) (d : Managed) : OutputLine → Bool
  | .railen => (s.outputs d).railen
  | .drst => s.drstPin d
  | .iso => (s.outputs d).iso
  | .ckrq => (s.outputs d).ckrq
  | .vsel => (s.outputs d).vsel

/-- R113: the three conditions of an active detector. -/
def State.detectorActive (s : State) (k : LineId) : Bool :=
  s.partState == .run && (s.wake k).enabled && Level.retain.num ≤ (s.assured (s.wake k).home).num

/-- R182: the domain is OFF, or in FAULT with its drain complete. -/
def Engine.down (e : Engine) : Bool :=
  match e.state with
  | .off => true
  | .fault => e.drainComplete
  | _ => false

/-- R182: every managed domain is down. -/
def State.allDown (s : State) : Bool := allManaged.all fun d => (s.engine d).down

/-- R94: a drain is running in the engine. -/
def Engine.drains (e : Engine) : Bool :=
  match e.state with
  | .draining => true
  | .fault => !e.drainComplete
  | _ => false

/-! ### Events that are due -/

/-- R76: a grant is due. -/
def State.grantDue (s : State) : Bool :=
  match s.rampQueue with
  | d :: _ => s.weight d ≤ s.freeUnits
  | [] => false

/-- R53, R55, R56: a step-begin event of the engine would begin or withdraw something. -/
def State.stepDue (s : State) (d : Managed) : Bool :=
  match (s.engine d).state with
  | .off => s.target d != .off
  | .retain => s.target d != .retain
  | .run => s.target d != .run
  | .boost => s.target d != .boost
  | .waitParent => s.target d == .off
  | .waitBudget => s.target d == .off
  | _ => false

/-- The engine is in a timed state whose timer has expired at the tick (R51; log 6). -/
def State.expiryDue (s : State) (d : Managed) (st : EngineState) : Bool :=
  (s.engine d).state == st && (s.engine d).timer == some 0

end Sys2Proof.Machine
end

