-- ==== Sys2Proof/Machine/Leases.lean ====
section
/-! DEFINITION. The lease table's shared operations: creating, granting, changing, ending and freeing leases. -/

namespace Sys2Proof.Machine

/-- The window a watched lease names (R19). -/
def Term.window? : Term → Option WindowId
  | .timed _ => none
  | .watched _ w => some w
  | .standing => none

/-- R102: the users count of the term's window rises by one. -/
def countIn (t : Term) (s : State) : State :=
  match t.window? with
  | some w => s.setWindow w { s.window w with users := (s.window w).users + 1 }
  | none => s

/-- R102: the users count of the term's window falls by one. -/
def countOut (t : Term) (s : State) : State :=
  match t.window? with
  | some w => s.setWindow w { s.window w with users := (s.window w).users - 1 }
  | none => s

/-- R36, R39: a wake link that names the lease is cleared. -/
def WakeLine.unlink (h : Handle) (w : WakeLine) : WakeLine :=
  if w.link = some h then { w with link := none } else w

/-- R112: the link that names the handle is cleared. -/
def clearLinks (h : Handle) (s : State) : State :=
  { s with wakes := s.wakes.map (WakeLine.unlink h) }

/-- R36, R39: a live lease leaves its domain's list, is counted out of its window, and a link naming it is cleared. -/
def leaveTable (i : SlotId) (l : Lease) (s : State) : State :=
  clearLinks (s.handle i) (countOut l.term (s.setList l.domain ((s.list l.domain).filter fun j => j ≠ i)))

/-- R36: the ending of the live lease in a slot. A slot without a live lease is left as it is. -/
def endLease (i : SlotId) (cause : EndCause) (s : State) : State :=
  match s.lease i with
  | some l =>
    if l.live then
      ((leaveTable i l s).setLease i { l with state := .ended cause }).post l.holder (.ended (s.handle i) cause)
    else s
  | none => s

/-- R39: the freeing of a slot. A FREE slot is left as it is. -/
def freeSlot (i : SlotId) (s : State) : State :=
  match s.lease i with
  | some l =>
    ((if l.live then leaveTable i l s else s).setSlot i
      { generation := (s.slot i).generation + 1, lease := none }).purge l.holder i
  | none => s

/-- R42, R43: several slots are freed in one event. -/
def freeSlots (is : List SlotId) (s : State) : State :=
  is.foldl (fun t i => freeSlot i t) s

/-- R24: why a creation for an agent is not made. -/
inductive Shortfall where
  | quota | table
  deriving DecidableEq, Repr

/-- R24: the quota is examined before the table's fill. -/
def State.shortfall (s : State) (a : Agent) : Option Shortfall :=
  if Config.quota ≤ (s.slotsOf a).length then some .quota
  else if s.lowestFree.isNone then some .table
  else none

/-- R29: a countdown as a loading leaves it. -/
def Countdown.start (time : Nat) : Countdown := { left := time, since := .loaded }

/-- R27: the state a new lease is settled in, against the assured level. -/
def newLease (a : Agent) (d : Managed) (term : Term) (wanted : Level) (tag : Tag) (origin : Origin) (assured : Level) :
    Lease :=
  if wanted.num ≤ assured.num then
    { holder := a, domain := d, term := term, wanted := wanted, granted := some wanted,
      state := .held (term.time.map Countdown.start), tag := tag, origin := origin }
  else
    { holder := a, domain := d, term := term, wanted := wanted, granted := none, state := .pending,
      tag := tag, origin := origin }

/-- R27, R28: a lease is put into the slot i and joins the tail of its domain's list. -/
def placeLease (i : SlotId) (l : Lease) (s : State) : State :=
  countIn l.term ((s.setLease i l).setList l.domain (s.list l.domain ++ [i]))

/-- R32, R35: the first grant, with the countdown loaded (R29). -/
def Lease.grant (l : Lease) : Lease :=
  { l with granted := some l.wanted, state := .held (l.term.time.map Countdown.start) }

/-- A level that may be absent, as a number: absent is below every level. -/
def grantedNum : Option Level → Nat
  | some level => level.num
  | none => 0

/-- R32: what a report does for one lease of the list. -/
def reportLease (assured : Level) (i : SlotId) (s : State) : State :=
  match s.lease i with
  | some l =>
    match l.state with
    | .pending =>
      if l.wanted.num ≤ assured.num then
        (s.setLease i l.grant).post l.holder (.granted (s.handle i) l.wanted)
      else s
    | .held _ =>
      if grantedNum l.granted < l.wanted.num ∧ grantedNum l.granted < assured.num then
        (s.setLease i { l with granted := some (l.wanted.lower assured) }).post l.holder
          (.granted (s.handle i) (l.wanted.lower assured))
      else s
    | .ended _ => s
  | none => s

/-- R32: the table takes the domain's waiting report against the assured level as it stands. -/
def takeReport (d : Managed) (s : State) : State :=
  match s.report d with
  | some _ => (s.list d).foldl (fun t i => reportLease (s.assuredOf d) i t) (s.setReport d none)
  | none => s

/-- R31: a renewal; time none keeps the stored time. -/
def Term.renewed (t : Term) (time : Option Nat) : Term :=
  match t, time with
  | .timed _, some n => .timed n
  | .watched _ w, some n => .watched n w
  | .timed n, none => .timed n
  | .watched n w, none => .watched n w
  | .standing, _ => .standing

/-- R45: the mark that a loading leaves. The first loading decides it, by whether the countdown then stood at 1; a further
loading leaves it (R46, R106, R119; log 22). -/
def Countdown.markOnLoading (c : Countdown) : SinceTick :=
  match c.since with
  | .untouched => if c.left ≤ 1 then .ahead else .loaded
  | .loaded => .loaded
  | .ahead => .ahead
  | .passed => .passed

/-- R29: a countdown is loaded anew. -/
def Countdown.reload (old : Option Countdown) (time : Nat) : Countdown :=
  match old with
  | some c => { left := time, since := c.markOnLoading }
  | none => Countdown.start time

/-- R29: the countdown of a HELD lease is loaded; any other lease state is left. -/
def LeaseState.load (time : Option Nat) : LeaseState → LeaseState
  | .held old => .held (time.map (Countdown.reload old))
  | .pending => .pending
  | .ended cause => .ended cause

/-- R29: a HELD lease's countdown is loaded with its term's time; any other lease is left. -/
def Lease.reload (l : Lease) : Lease := { l with state := l.state.load l.term.time }

/-- R31: the renewal of a lease. -/
def Lease.renew (l : Lease) (time : Option Nat) : Lease :=
  Lease.reload { l with term := l.term.renewed time }

/-- R34, R35: MODIFY of a live lease to another level, against the assured level. -/
def Lease.relevel (l : Lease) (level assured : Level) : Lease :=
  match l.state with
  | .pending =>
    if level.num ≤ assured.num then Lease.grant { l with wanted := level } else { l with wanted := level }
  | .held _ => { l with wanted := level, granted := some (level.lower assured) }
  | .ended _ => l

/-- R159: "A MODIFY to the level the lease already wants is taken and changes nothing", a PENDING lease that the
assured level already meets included (the model's reading beside R34 and R35, log 21); otherwise R34, R35. -/
def Lease.modify (l : Lease) (level assured : Level) : Lease :=
  if level = l.wanted then l else l.relevel level assured

/-- R104: the reload claim for a window, at one slot. -/
def reloadAt (w : WindowId) (s : State) (i : SlotId) : State :=
  match s.lease i with
  | some l => if l.term.window? = some w then s.setLease i l.reload else s
  | none => s

/-- R104: the reload claim for a window. -/
def reloadClaim (w : WindowId) (s : State) : State :=
  allSlots.foldl (reloadAt w) s

/-- R30: the coming tick brings the countdown to zero. R45: one whose expiry at that tick has passed behind a loading
does not expire at it (log 22). -/
def Countdown.expires (c : Countdown) : Bool := c.left ≤ 1 && c.since != .passed

/-- R30: a tick lowers a countdown that it does not bring to zero. R45: a countdown of 1 whose expiry at this tick has
passed behind a loading goes on with 1 (log 22). -/
def Countdown.tick (c : Countdown) : Countdown :=
  { left := if c.left ≤ 1 then c.left else c.left - 1, since := .untouched }

/-- R30: the tick's share at one lease. -/
def tickLease (s : State) (i : SlotId) : State :=
  match s.lease i with
  | some l =>
    match l.state with
    | .held (some c) =>
      if c.expires = true then endLease i l.term.expiryCause s else s.setLease i { l with state := .held (some c.tick) }
    | _ => s
  | none => s

/-- R30: the lease in the slot is one that a tick taken now ends. -/
def State.expires (s : State) (i : SlotId) : Bool :=
  match s.lease i with
  | some l =>
    match l.state with
    | .held (some c) => c.expires
    | _ => false
  | none => false

/-- R45: once an expiry of the coming tick is taken, the loadings before it that came ahead of no due expiry stand as
countdowns that the coming tick finds (log 22). -/
def Countdown.settle (c : Countdown) : Countdown :=
  { c with since := if c.since = .loaded then .untouched else c.since }

/-- The countdown of a HELD lease is settled; any other lease state is left. -/
def LeaseState.settle : LeaseState → LeaseState
  | .held countdown => .held (countdown.map Countdown.settle)
  | .pending => .pending
  | .ended cause => .ended cause

/-- Every countdown is settled. -/
def settleMarks (s : State) : State :=
  { s with
    slots := Vector.ofFn fun i =>
      { s.slot i with lease := (s.lease i).map fun l => { l with state := l.state.settle } } }

/-- R30, R45: the expiry of one lease at the coming tick, as an event of its own (log 5). It ends a lease that the tick
would end. Behind a loading that came ahead of it, it ends nothing, and the lease does not expire at that tick (log 22). -/
def takeExpiry (i : SlotId) (s : State) : State :=
  match s.lease i with
  | some l =>
    match l.state with
    | .held (some c) =>
      if c.since = .ahead then s.setLease i { l with state := .held (some { c with since := .passed }) }
      else if c.expires = true then endLease i l.term.expiryCause s
      else s
    | _ => s
  | none => s

end Sys2Proof.Machine
end

