-- ==== Sys2Proof/Machine/Engines.lean ====
section
/-! DEFINITION. The engines' and the ramp arbiter's shared operations: arrival, the steps, grants, returns, and the
fault event with its cuts. -/

namespace Sys2Proof.Machine

/-! ### The ramp arbiter -/

/-- R75: a domain enters WAIT_BUDGET and joins the tail of the ramp queue. -/
def enterQueue (d : Managed) (s : State) : State :=
  { s.moveEngine d .waitBudget none with rampQueue := s.rampQueue ++ [d] }

/-- R78: a domain is taken out of the ramp queue; those behind close up. -/
def withdraw (d : Managed) (s : State) : State :=
  { s with rampQueue := s.rampQueue.filter fun e => e ≠ d }

/-- R77: the domain's weight returns if it holds it. -/
def returnWeight (d : Managed) (s : State) : State :=
  { s with freeUnits := s.freeUnits + s.heldWeight d }

/-! ### Arrival and the steps -/

/-- R52, R55: one child that waits for its parent is released when the parent's assured level meets its floor. -/
def releaseChild (p : Managed) (s : State) (c : Managed × Level) : State :=
  if (s.engine c.1).state = .waitParent ∧ c.2.num ≤ (s.assuredOf p).num then enterQueue c.1 s else s

/-- R52: an arrival's first two actions, after the engine has entered the level state: the report is handed (and
merges into one that waits), and waiting children are released in ascending domain number. -/
def enterLevel (d : Managed) (level : Level) (s : State) : State :=
  let arrived := (s.moveEngine d level.engineState none).setReport d (some level)
  (arrived.children (managedDomain d)).foldl (releaseChild d) arrived

/-- R54: the rise from OFF begins: WAIT_PARENT, and on at once to WAIT_BUDGET if the parent meets the floor. -/
def beginRise (d : Managed) (s : State) : State :=
  let waiting := s.moveEngine d .waitParent none
  match s.place d with
  | some (p, floor) => if floor.num ≤ (s.assured p).num then enterQueue d waiting else waiting
  | none => waiting

/-- R53, the table: the step from a level state towards the target, as the target stands now. `arrive` is what
an arrival made within the step does (a chain of skipped steps, R51). -/
def beginStep (arrive : Level → State → State) (d : Managed) (level : Level) (s : State) : State :=
  match s.record d with
  | none => s
  | some r =>
    match level with
    | .off => if s.target d ≠ .off then beginRise d s else s
    | .retain =>
      if Level.retain.num < (s.target d).num then
        match r.clockTimeout with
        | some t =>
          if s.ckokSeen d then arrive .run (s.moveEngine d .clockUp (some t))
          else s.moveEngine d .clockUp (some t)
        | none => s
      else if (s.target d).num < Level.retain.num then s.moveEngine d .draining (some r.drain)
      else s
    | .run =>
      if Level.run.num < (s.target d).num then
        match r.boostSettle with
        | some 0 => arrive .boost s
        | some (t + 1) => s.moveEngine d .boostUp (some (t + 1))
        | none => s
      else if (s.target d).num < Level.run.num then arrive .retain s
      else s
    | .boost =>
      if (s.target d).num < Level.boost.num then
        match r.boostSettle with
        | some 0 => arrive .run s
        | some (t + 1) => s.moveEngine d .boostDown (some (t + 1))
        | none => s
      else s

/-- R52: an arrival, with the re-evaluation that begins the next step in the same event. The bound is on the
arrivals of one chain (log 15). -/
def arriveWithin : Nat → Managed → Level → State → State
  | 0, d, level, s => enterLevel d level s
  | n + 1, d, level, s => beginStep (arriveWithin n d) d level (enterLevel d level s)

/-- R52: the engine arrives at a level. -/
def arrive (d : Managed) (level : Level) (s : State) : State :=
  arriveWithin Config.chainBound d level s

/-- R58: SETTLE ends, or is skipped: the weight returns, then the domain arrives at RETAIN. -/
def endSettle (d : Managed) (s : State) : State :=
  arrive d .retain (returnWeight d s)

/-- R57, R58: PGOOD is seen in RAIL_UP: SETTLE begins, or with a settle of 0 its end is done at once (R51). -/
def seePgood (d : Managed) (s : State) : State :=
  match s.record d with
  | some r => if r.settle = 0 then endSettle d s else s.moveEngine d .settle (some r.settle)
  | none => s

/-- R57, R76: the engine enters RAIL_UP with the power-good timeout loaded, and sees PGOOD at once if it stands. -/
def enterRailUp (d : Managed) (s : State) : State :=
  let rising := s.moveEngine d .railUp ((s.record d).map DomainRecord.pgoodTimeout)
  if rising.pgoodSeen d then seePgood d rising else rising

/-- R53 to R56: the step-begin event of an engine, which reads the target as it stands. A timed state and FAULT
take none (R65, R69). -/
def takeStep (d : Managed) (s : State) : State :=
  match (s.engine d).state with
  | .off => beginStep (arrive d) d .off s
  | .retain => beginStep (arrive d) d .retain s
  | .run => beginStep (arrive d) d .run s
  | .boost => beginStep (arrive d) d .boost s
  | .waitParent => if s.target d = .off then arrive d .off s else s
  | .waitBudget => if s.target d = .off then arrive d .off (withdraw d s) else s
  | .railUp => s
  | .settle => s
  | .clockUp => s
  | .boostUp => s
  | .boostDown => s
  | .draining => s
  | .fault => s

/-! ### The domain output pins -/

/-- R50: the changes from one set of outputs to another, in the order in which the pins change: those that close
the domain, then those that open it. An output that keeps its value is not touched. -/
def outputChanges (d : Managed) (old new : Outputs) : List PinChange :=
  (if old.vsel && !new.vsel then [⟨d, .vsel, false⟩] else []) ++
  (if !old.iso && new.iso then [⟨d, .iso, true⟩] else []) ++
  (if old.ckrq && !new.ckrq then [⟨d, .ckrq, false⟩] else []) ++
  (if !old.drst && new.drst then [⟨d, .drst, true⟩] else []) ++
  (if old.railen && !new.railen then [⟨d, .railen, false⟩] else []) ++
  (if !old.railen && new.railen then [⟨d, .railen, true⟩] else []) ++
  (if old.drst && !new.drst then [⟨d, .drst, false⟩] else []) ++
  (if !old.ckrq && new.ckrq then [⟨d, .ckrq, true⟩] else []) ++
  (if old.iso && !new.iso then [⟨d, .iso, false⟩] else []) ++
  (if !old.vsel && new.vsel then [⟨d, .vsel, true⟩] else [])

/-- R50, R85: the pin changes of an event that led from one state to another, the domains taken in the given order. -/
def pinChanges (order : List Managed) (old new : State) : List PinChange :=
  order.flatMap fun d => outputChanges d (old.outputs d) (new.outputs d)

/-- The pin changes of an event are appended to the pin log (log 8). -/
def logPins (order : List Managed) (old new : State) : State :=
  { new with pinLog := new.pinLog ++ pinChanges order old new }

/-! ### Grants -/

/-- R76: the grant of one domain: it leaves the head of the queue, its weight is taken, its engine enters RAIL_UP. -/
def grantHead (d : Managed) (rest : List Managed) (s : State) : State :=
  enterRailUp d { s with rampQueue := rest, freeUnits := s.freeUnits - s.weight d }

/-- R76: the grant event: the head is granted while it fits, each grant's pin changes in turn. -/
def grantChain : Nat → State → State
  | 0, s => s
  | n + 1, s =>
    match s.rampQueue with
    | d :: rest => if s.weight d ≤ s.freeUnits then grantChain n (logPins [d] s (grantHead d rest s)) else s
    | [] => s

/-! ### The fault event -/

/-- R69, R83: the failing engine enters FAULT, its weight returned if it held it. -/
def failEngine (d : Managed) (cause : FaultCause) (s : State) : State :=
  (returnWeight d s).setEngine d
    { state := .fault, timer := (s.record d).map DomainRecord.drain, cause := some cause, drainComplete := false }

/-- R84: the cut of one descendant. -/
def cutEngine (s : State) (e : Managed) : State :=
  match (s.engine e).state with
  | .off => s
  | .waitParent => arrive e .off s
  | .waitBudget => arrive e .off (withdraw e s)
  | .railUp => (returnWeight e s).moveEngine e .draining ((s.record e).map DomainRecord.drain)
  | .settle => (returnWeight e s).moveEngine e .draining ((s.record e).map DomainRecord.drain)
  | .retain => s.moveEngine e .draining ((s.record e).map DomainRecord.drain)
  | .clockUp => s.moveEngine e .draining ((s.record e).map DomainRecord.drain)
  | .run => s.moveEngine e .draining ((s.record e).map DomainRecord.drain)
  | .boostUp => s.moveEngine e .draining ((s.record e).map DomainRecord.drain)
  | .boost => s.moveEngine e .draining ((s.record e).map DomainRecord.drain)
  | .boostDown => s.moveEngine e .draining ((s.record e).map DomainRecord.drain)
  | .draining => s
  | .fault => s

/-- R38: every lease of a list ends with the cause, in list order. -/
def endAll (is : List SlotId) (cause : EndCause) (s : State) : State :=
  is.foldl (fun t i => endLease i cause t) s

/-- The descendants of d in ascending domain number (00 §6.2). -/
def State.descendants (s : State) (d : Managed) : List Managed :=
  allManaged.filter fun e => s.below d e

/-- R83: the fault event of domain d: at d, at the descendants, at the lease table and at the notice unit. -/
def faultEvent (d : Managed) (cause : FaultCause) (s : State) : State :=
  let cut := (s.descendants d).foldl cutEngine (failEngine d cause s)
  let ended := (s.descendants d).foldl (fun t e => endAll (t.list e) .parentFault t) (endAll (cut.list d) .fault cut)
  ended.post 0 (.fault d cause 1)

/-! ### The end of an event of an engine -/

/-- R182: STOPPING ends in the event that leaves every managed domain down. -/
def endStopping (s : State) : State :=
  if s.partState = .stopping ∧ s.allDown = true then { s with partState := .setup } else s

/-- R113, R114: a detector that has become active samples its line; one that has become inactive drops its
baseline; one that stays active keeps it. -/
def refreshDetector (s : State) (k : LineId) : WakeLine :=
  if s.detectorActive k then
    { s.wake k with baseline := some ((s.wake k).baseline.getD s.lines[k]) }
  else { s.wake k with baseline := none }

/-- R113: detector activity changes in the event that changes one of its conditions. -/
def refreshDetectors (s : State) : State :=
  allLines.foldl (fun t k => t.setWake k (refreshDetector t k)) s

/-- What every event of the engines ends with: the end of STOPPING, the detectors, the pins. -/
def closeEvent (order : List Managed) (old new : State) : State :=
  logPins order old (refreshDetectors (endStopping new))

/-- A fault event taken whole, its pins in descending domain number (R85). -/
def takeFault (d : Managed) (cause : FaultCause) (s : State) : State :=
  closeEvent descendingManaged s (faultEvent d cause s)

end Sys2Proof.Machine
end

