-- ==== Sys2Proof/Machine/BlockEvents.lean ====
section
/-! DEFINITION. Events that the blocks of the part take of themselves: step-begin, grant, level-reached report
(R32, R53, R76); and the part reset with what follows it (R100, R169, R196). -/

namespace Sys2Proof.Machine

/-- R53 to R56. -/
def execStepBegin (d : Managed) (s : State) : Host.Outcome State Fault Refusal :=
  .next (if s.resetHeld = true then s else closeEvent [d] s (takeStep d s))

/-- R76; the pins are logged grant by grant. -/
def execRampGrant (s : State) : Host.Outcome State Fault Refusal :=
  .next (if s.resetHeld = true then s else closeEvent [] s (grantChain Config.grantBound s))

/-- R32. -/
def execLevelReachedReport (d : Managed) (s : State) : Host.Outcome State Fault Refusal :=
  .next (if s.resetHeld = true then s else takeReport d s)

/-- R169: every block at its reset values and RESETN held. The input pins are the board's and keep their levels
(log 2); the domains close in descending number (R71). -/
def resetPart (s : State) : State :=
  logPins descendingManaged s
    { State.reset with
      resetHeld := true
      pgood := s.pgood
      ckok := s.ckok
      lines := s.lines
      pinLog := s.pinLog
      pending := s.pending }

/-- R169. -/
def execPartReset (s : State) : Host.Outcome State Fault Refusal :=
  .next (resetPart s)

/-- R100, R169, R196: RESETN is released. A port whose chip select stands asserted, and a tap receiver whose TFRM
stands asserted, wait to see it deasserted. -/
def releaseReset (chipSelects : Vector Bool 4) (tfrm : Bool) (s : State) : State :=
  { s with
    resetHeld := false
    tapAwaits := tfrm
    ports := s.ports.zipWith (fun p cs => { p with awaitsDeselect := cs }) chipSelects }

/-- R169. -/
def execPartResetRelease (chipSelects : Vector Bool 4) (tfrm : Bool) (s : State) : Host.Outcome State Fault Refusal :=
  .next (if s.resetHeld = true then releaseReset chipSelects tfrm s else s)

/-- R196. -/
def execChipSelectDeasserted (p : Agent) (s : State) : Host.Outcome State Fault Refusal :=
  .next (if s.resetHeld = true then s else s.setPort p { s.port p with awaitsDeselect := false })

end Sys2Proof.Machine
end

