-- ==== Sys2Proof/Machine/Wakes.lean ====
section
/-! DEFINITION. Wake claims: what a selected edge asks of the lease table and of the notice unit (R116 to R118). -/

namespace Sys2Proof.Machine

/-- R114: the edge from the baseline to the other level is one the record selects. -/
def Edge.selects (edge : Edge) (level : Bool) : Bool :=
  match edge with
  | .rise => level
  | .fall => !level
  | .both => true

/-- R117: the live lease a wake record's link names. -/
def State.linked (s : State) (k : LineId) : Option (SlotId × Lease) :=
  match (s.wake k).link with
  | some h =>
    match s.named h with
    | some l => if l.live then some (h.slot, l) else none
    | none => none
  | none => none

/-- R28, R117: the rows of the creation, in their order. -/
def wakeCreation (k : LineId) (t : Template) (s : State) : State × WakeOutcome :=
  if s.faultAtOrAbove t.domain then (s, .notMadeFault)
  else
    match s.shortfall (s.wake k).agent, s.lowestFree with
    | some .quota, _ => (s, .notMadeQuota)
    | some .table, _ => (s, .notMadeTable)
    | none, none => (s, .notMadeTable)
    | none, some i =>
      let l := newLease (s.wake k).agent t.domain (.timed t.duration) t.level 0 (.line k) (s.assuredOf t.domain)
      ((placeLease i l s).setWake k { s.wake k with link := some (s.handle i) },
        if t.level.num ≤ (s.assuredOf t.domain).num then .madeHeld else .madePending)

/-- R117: the lease table settles a claim; the first row that holds decides. -/
def settleClaim (k : LineId) (s : State) : State × WakeOutcome :=
  match (s.wake k).template with
  | none => (s, .none)
  | some t =>
    match s.linked k with
    | some (i, l) => (s.setLease i (l.renew (some t.duration)), .renewed)
    | none => wakeCreation k t s

/-- R116, R118: the claim as one event; its WAKE notice goes to the bound agent. -/
def wakeClaim (k : LineId) (s : State) : State :=
  (settleClaim k s).1.post (s.wake k).agent (.wake k 1 (settleClaim k s).2)

end Sys2Proof.Machine
end

