-- ==== Sys2Proof/Machine/InputEvents.lean ====
section
/-! DEFINITION. Events of the tap port, the wake lines and the domain inputs. While a reset is held the part takes
none of them, but the levels at the input pins go on changing (R169; log 12). -/

namespace Sys2Proof.Machine

/-! ### The tap port -/

/-- R103: the window matches the address. -/
def WindowRange.contains (r : WindowRange) (a : Address) : Bool :=
  r.base.toNat ≤ a.toNat && a.toNat < r.base.toNat + r.length

/-- R103: the windows in ascending order. -/
def allWindows : List WindowId := [0, 1, 2, 3, 4, 5, 6, 7, 8, 9, 10, 11, 12, 13, 14, 15]

/-- R103: a defined window that the address falls in. -/
def State.matchesWindow (s : State) (a : Address) (w : WindowId) : Bool :=
  match (s.window w).range with
  | some r => r.contains a
  | none => false

/-- R103, R104: one reload claim for each window that matches. -/
def matchAddress (a : Address) (s : State) : State :=
  (allWindows.filter (s.matchesWindow a)).foldl (fun t w => reloadClaim w t) s

/-- R98 to R100: the arrival of a word. -/
def takeTapWord (bits : List Bool) (s : State) : State :=
  if s.resetHeld = true ∨ s.tapAwaits = true ∨ s.partState ≠ .run then s
  else
    match tapAddress bits with
    | some a => matchAddress a s
    | none => s

/-- R98 to R104. -/
def execTapWord (bits : List Bool) (s : State) : Host.Outcome State Fault Refusal :=
  .next (takeTapWord bits s)

/-- R100: after a reset the receiver takes bits once it has seen TFRM deasserted. -/
def execTfrmDeasserted (s : State) : Host.Outcome State Fault Refusal :=
  .next (if s.resetHeld = true then s else { s with tapAwaits := false })

/-! ### The wake lines -/

/-- R114: an active detector takes a level other than its baseline as an edge. -/
def takeEdge (k : LineId) (level : Bool) (s : State) : State :=
  match (s.wake k).baseline with
  | some base =>
    if s.detectorActive k = true ∧ base ≠ level then
      if (s.wake k).edge.selects level = true then
        wakeClaim k (s.setWake k { s.wake k with baseline := some level })
      else s.setWake k { s.wake k with baseline := some level }
    else s
  | none => s

/-- R114: the sampled level of a line. -/
def State.setLine (k : LineId) (level : Bool) (s : State) : State :=
  { s with lines := s.lines.set k level }

/-- R114 to R118. -/
def execLineEvent (k : LineId) (level : Bool) (s : State) : Host.Outcome State Fault Refusal :=
  .next (if s.resetHeld = true then s.setLine k level else takeEdge k level (s.setLine k level))

/-! ### The domain inputs -/

/-- The level at a PGOOD pin. -/
def State.setPgood (d : Managed) (level : Bool) (s : State) : State :=
  { s with pgood := s.pgood.set d level }

/-- The level at a CKOK pin. -/
def State.setCkok (d : Managed) (level : Bool) (s : State) : State :=
  { s with ckok := s.ckok.set d level }

/-- R57, R67: PGOOD asserted is acted on in RAIL_UP alone. -/
def takePgood (d : Managed) (s : State) : State :=
  if (s.engine d).state = .railUp ∧ s.pgoodSampled d = true then closeEvent [d] s (seePgood d s) else s

/-- R67: PGOOD deasserted is a fault in the supervised states. -/
def losePgood (d : Managed) (s : State) : State :=
  if (s.engine d).state.supervisesPgood = true ∧ s.pgoodSampled d = true then takeFault d .pgoodLost s else s

/-- R59, R68: CKOK asserted is acted on in CLOCK_UP alone. -/
def takeCkok (d : Managed) (s : State) : State :=
  if (s.engine d).state = .clockUp ∧ s.ckokSampled d = true then closeEvent [d] s (arrive d .run s) else s

/-- R68: CKOK deasserted is a fault in the states that rely on the clock. -/
def loseCkok (d : Managed) (s : State) : State :=
  if (s.engine d).state.supervisesCkok = true ∧ s.ckokSampled d = true then takeFault d .clockLost s else s

/-- R57, R67. -/
def execPgoodAsserted (d : Managed) (s : State) : Host.Outcome State Fault Refusal :=
  .next (if s.resetHeld = true then s.setPgood d true else takePgood d (s.setPgood d true))

/-- R67. -/
def execPgoodDeasserted (d : Managed) (s : State) : Host.Outcome State Fault Refusal :=
  .next (if s.resetHeld = true then s.setPgood d false else losePgood d (s.setPgood d false))

/-- R59, R68. -/
def execCkokAsserted (d : Managed) (s : State) : Host.Outcome State Fault Refusal :=
  .next (if s.resetHeld = true then s.setCkok d true else takeCkok d (s.setCkok d true))

/-- R68. -/
def execCkokDeasserted (d : Managed) (s : State) : Host.Outcome State Fault Refusal :=
  .next (if s.resetHeld = true then s.setCkok d false else loseCkok d (s.setCkok d false))

end Sys2Proof.Machine
end

