-- ==== Sys2Proof/Machine/Operands.lean ====
section
/-! DEFINITION. The fields of request and reply bodies (R198 to R200): what each byte may carry and how each value
is sent. A decoding that answers none is a field out of range (R144). -/

namespace Sys2Proof.Machine

/-! ### Request fields -/

/-- A body byte. The length check comes before any field is read (R139), so no absent byte is ever read. -/
def byteAt (body : List Byte) (i : Nat) : Byte := body.getD i 0

/-- A field of several bytes, most significant first (R198). -/
def fieldAt (body : List Byte) (i len : Nat) : Nat :=
  ((body.drop i).take len).foldl (fun n b => 256 * n + b.toNat) 0

def decodeDomain (b : Byte) : Option Domain :=
  if h : b.toNat < 16 then some ⟨b.toNat, h⟩ else none

/-- A domain number 1 to 15 (R172, R174). -/
def decodeManaged (b : Byte) : Option Managed :=
  (decodeDomain b).bind asManaged

def decodeAgent (b : Byte) : Option Agent :=
  if h : b.toNat < 4 then some ⟨b.toNat, h⟩ else none

def decodeSlot (b : Byte) : Option SlotId :=
  if h : b.toNat < 48 then some ⟨b.toNat, h⟩ else none

def decodeWindow (b : Byte) : Option WindowId :=
  if h : b.toNat < 16 then some ⟨b.toNat, h⟩ else none

def decodeLine (b : Byte) : Option LineId :=
  if h : b.toNat < 8 then some ⟨b.toNat, h⟩ else none

def decodeLevel (b : Byte) : Option Level :=
  match b.toNat with
  | 0 => some .off
  | 1 => some .retain
  | 2 => some .run
  | 3 => some .boost
  | _ => none

/-- RETAIN, RUN or BOOST (R172, R174). -/
def decodeUpLevel (b : Byte) : Option Level :=
  match b.toNat with
  | 1 => some .retain
  | 2 => some .run
  | 3 => some .boost
  | _ => none

def decodeYesNo (b : Byte) : Option Bool :=
  match b.toNat with
  | 0 => some false
  | 1 => some true
  | _ => none

def decodeEdge (b : Byte) : Option Edge :=
  match b.toNat with
  | 0 => some .rise
  | 1 => some .fall
  | 2 => some .both
  | _ => none

/-- A number that must lie in a range (R172). -/
def decodeBetween (low high n : Nat) : Option Nat :=
  if low ≤ n ∧ n ≤ high then some n else none

/-- A handle: slot, then generation, which is always in range (R144, R198). -/
def decodeHandle (body : List Byte) : Option Handle :=
  (decodeSlot (byteAt body 0)).map fun i => { slot := i, generation := byteAt body 1 }

/-- R153: the kind with the fields that the kind reads: the window at byte 3, the time at bytes 4 and 5. -/
def decodeTerm (body : List Byte) : Option Term :=
  match (byteAt body 2).toNat with
  | 1 => (decodeBetween 1 65535 (fieldAt body 4 2)).map .timed
  | 2 =>
    match decodeWindow (byteAt body 3), decodeBetween 1 65535 (fieldAt body 4 2) with
    | some w, some n => some (.watched n w)
    | _, _ => none
  | 3 => some .standing
  | _ => none

/-- ACQUIRE's fields after the range pass (R154). -/
structure AcquireFields where
  domain : Domain
  level : Level
  term : Term
  tag : Tag
  deriving DecidableEq, Repr

/-- R154, the range pass of ACQUIRE. -/
def decodeAcquire (body : List Byte) : Option AcquireFields :=
  match decodeDomain (byteAt body 0), decodeLevel (byteAt body 1), decodeTerm body with
  | some d, some level, some term => some { domain := d, level := level, term := term, tag := BitVec.ofNat 16 (fieldAt body 6 2) }
  | _, _, _ => none

/-- R172: the conditional fields of DEFINE_DOMAIN, read by the maximum level. -/
def decodeClock (maxLevel : Level) (b : Byte) : Option (Option Nat) :=
  if Level.retain.num < maxLevel.num then (decodeBetween 1 255 b.toNat).map some else some none

/-- R172: the boost settle is read with a maximum level of BOOST. -/
def decodeBoost (maxLevel : Level) (b : Byte) : Option Nat :=
  if maxLevel = .boost then some b.toNat else none

/-- R172: the record that a DEFINE_DOMAIN body asks for domain d, with max level not OFF; none out of range. -/
def decodeRecord (d : Managed) (maxLevel : Level) (body : List Byte) : Option DomainRecord :=
  match decodeDomain (byteAt body 1), decodeUpLevel (byteAt body 2), decodeBetween 1 8 (byteAt body 4).toNat,
    decodeBetween 1 255 (byteAt body 5).toNat, decodeClock maxLevel (byteAt body 7),
    decodeBetween 1 255 (byteAt body 9).toNat with
  | some parent, some floor, some weight, some pgoodTimeout, some clock, some drain =>
    if parent.val ≤ d.val then
      some { parent := parent, floor := floor, maxLevel := maxLevel, weight := weight, pgoodTimeout := pgoodTimeout,
             settle := (byteAt body 6).toNat, clockTimeout := clock,
             boostSettle := decodeBoost maxLevel (byteAt body 8), drain := drain }
    else none
  | _, _, _, _, _, _ => none

/-- R172, the range pass of DEFINE_DOMAIN: the domain, and its new record or none for a removal. -/
def decodeDefineDomain (body : List Byte) : Option (Managed × Option DomainRecord) :=
  match decodeManaged (byteAt body 0), decodeLevel (byteAt body 3) with
  | some d, some .off => some (d, none)
  | some d, some maxLevel => (decodeRecord d maxLevel body).map fun r => (d, some r)
  | _, _ => none

/-- R174: the template of a DEFINE_WAKE body; read only when template present is yes. -/
def decodeTemplate (body : List Byte) : Option (Option Template) :=
  match decodeYesNo (byteAt body 5) with
  | some false => some none
  | some true =>
    match decodeManaged (byteAt body 6), decodeUpLevel (byteAt body 7), decodeBetween 1 65535 (fieldAt body 8 2) with
    | some d, some level, some n => some (some { domain := d, level := level, duration := n })
    | _, _, _ => none
  | none => none

/-- R174, the range pass of DEFINE_WAKE: the line and its new record, with no link and no baseline (R121). -/
def decodeDefineWake (body : List Byte) : Option (LineId × WakeLine) :=
  match decodeLine (byteAt body 0), decodeYesNo (byteAt body 1), decodeEdge (byteAt body 2),
    decodeAgent (byteAt body 3), decodeDomain (byteAt body 4), decodeTemplate body with
  | some k, some enabled, some edge, some agent, some home, some template =>
    some (k, { enabled := enabled, edge := edge, agent := agent, home := home, template := template,
               link := none, baseline := none })
  | _, _, _, _, _, _ => none

/-- R175, the range pass of SET_WINDOW. -/
def decodeSetWindow (body : List Byte) : Option (WindowId × WindowRange) :=
  match decodeWindow (byteAt body 0) with
  | some w =>
    if 1 ≤ fieldAt body 5 5 ∧ fieldAt body 1 4 + fieldAt body 5 5 ≤ Config.addressSpace then
      some (w, { base := BitVec.ofNat 32 (fieldAt body 1 4), length := fieldAt body 5 5 })
    else none
  | none => none

/-- R177, the range pass of SET_WAKE_ENABLE. -/
def decodeSetWakeEnable (body : List Byte) : Option (LineId × Bool) :=
  match decodeLine (byteAt body 0), decodeYesNo (byteAt body 1) with
  | some k, some enable => some (k, enable)
  | _, _ => none

/-! ### Reply fields -/

/-- A number sent in one byte. -/
def byteOf (n : Nat) : Byte := BitVec.ofNat 8 n

/-- A number sent in two bytes, most significant first (R198). -/
def twoBytes (n : Nat) : List Byte := [byteOf (n / 256), byteOf n]

def Level.code (l : Level) : Byte := byteOf l.num

/-- R198: 0 as a granted level means absent. -/
def grantedCode (g : Option Level) : Byte := byteOf (match g with | some l => l.num | none => 0)

def yesNoCode (b : Bool) : Byte := if b then 1 else 0

def Edge.code : Edge → Byte
  | .rise => 0 | .fall => 1 | .both => 2

def Term.code : Term → Byte
  | .timed _ => 1 | .watched _ _ => 2 | .standing => 3

def LeaseState.code : LeaseState → Byte
  | .pending => 1 | .held _ => 2 | .ended _ => 3

def PartState.code : PartState → Byte
  | .setup => 0 | .run => 1 | .stopping => 2

def EngineState.code : EngineState → Byte
  | .off => 0 | .waitParent => 1 | .waitBudget => 2 | .railUp => 3 | .settle => 4 | .retain => 5 | .clockUp => 6
  | .run => 7 | .boostUp => 8 | .boost => 9 | .boostDown => 10 | .draining => 11 | .fault => 12

def EndCause.code : EndCause → Byte
  | .expired => 1 | .idle => 2 | .revoked => 3 | .fault => 4 | .parentFault => 5

def FaultCause.code : FaultCause → Byte
  | .riseTimeout => 1 | .pgoodLost => 2 | .clockTimeout => 3 | .clockLost => 4 | .stuckRail => 5

def WakeOutcome.code : WakeOutcome → Byte
  | .none => 0 | .renewed => 1 | .madePending => 2 | .madeHeld => 3 | .notMadeQuota => 4 | .notMadeTable => 5
  | .notMadeFault => 6

def Origin.code : Origin → Byte
  | .request => 0 | .line k => byteOf (k.val + 1)

/-- R197, the status codes. -/
def Status.code : Status → Byte
  | .ok => 0x00 | .noReply => 0x01 | .badFrame => 0x02 | .unknownRequest => 0x03 | .badLength => 0x04
  | .badValue => 0x05 | .notRunning => 0x06 | .notInSetup => 0x07 | .notSupervisor => 0x08 | .noDomain => 0x09
  | .badLevel => 0x0A | .domainFault => 0x0B | .quota => 0x0C | .tableFull => 0x0D | .staleHandle => 0x0E
  | .notHolder => 0x0F | .wrongKind => 0x10 | .noWindow => 0x11 | .windowInUse => 0x12 | .stillDraining => 0x13
  | .stillPowered => 0x14 | .badConfig => 0x15 | .leaseEnded => 0x16 | .notFaulted => 0x17

/-- R198: an absent end cause is sent as 0. -/
def LeaseState.causeCode : LeaseState → Byte
  | .pending => 0
  | .held _ => 0
  | .ended cause => cause.code

/-- R198: an absent fault cause is sent as 0. -/
def faultCauseCode (c : Option FaultCause) : Byte :=
  match c with
  | some cause => cause.code
  | none => 0

/-- R198: an absent time or countdown is sent as 0. -/
def timeBytes (t : Option Nat) : List Byte := twoBytes (t.getD 0)

/-- The countdown a lease holds. -/
def LeaseState.countdown : LeaseState → Option Nat
  | .pending => none
  | .held c => c.map Countdown.left
  | .ended _ => none

/-- R198: an absent window is sent as 0xFF. -/
def Term.windowCode : Term → Byte
  | .timed _ => 0xFF
  | .watched _ w => byteOf w.val
  | .standing => 0xFF

/-- A domain's number in a body. -/
def managedCode (d : Managed) : Byte := byteOf (managedDomain d).val

/-- A handle in a body (R198). -/
def handleBytes (h : Handle) : List Byte := [byteOf h.slot.val, h.generation]

/-- R200: the 17 bytes of a QUERY_LEASE reply. -/
def leaseBytes (h : Handle) (l : Lease) : List Byte :=
  handleBytes h ++ [l.state.code, byteOf l.holder.val, managedCode l.domain, l.term.code, l.wanted.code,
    grantedCode l.granted] ++ timeBytes l.term.time ++ [l.term.windowCode] ++ timeBytes l.state.countdown ++
    twoBytes l.tag.toNat ++ [l.origin.code, l.state.causeCode]

/-- R200: the state bit of a lease entry, 0 PENDING and 1 HELD. -/
def LeaseState.heldBit : LeaseState → Nat
  | .pending => 0
  | .held _ => 1
  | .ended _ => 0

/-- R200: one 4-byte lease entry of a LIST_LEASES reply. -/
def leaseEntry (h : Handle) (l : Lease) : List Byte :=
  handleBytes h ++ [byteOf (8 * l.term.code.toNat + 4 * l.state.heldBit + l.holder.val),
    byteOf (4 * (grantedCode l.granted).toNat + l.wanted.num)]

/-- R200: one 4-byte notice entry of a TAKE_NOTICE reply. -/
def noticeEntry : Notice → List Byte
  | .granted h level => 1 :: (handleBytes h ++ [level.code])
  | .ended h cause => 2 :: (handleBytes h ++ [cause.code])
  | .wake k count outcome => [3, byteOf k.val, byteOf count, outcome.code]
  | .fault d cause count => [4, managedCode d, cause.code, byteOf count]

/-- R200: bytes 4 to 8 of a QUERY_WAKE reply. -/
def templateBytes : Option Template → List Byte
  | some t => [1, managedCode t.domain, t.level.code] ++ twoBytes t.duration
  | none => [0, 0, 0, 0, 0]

/-- R200: bytes 9 to 11 of a QUERY_WAKE reply. -/
def linkBytes : Option Handle → List Byte
  | some h => 1 :: handleBytes h
  | none => [0, 0, 0]

/-- R194: the frame of a held reply, with its check byte (R191). -/
def replyFrame (h : HeldReply) : List Byte :=
  let covered := h.echo :: h.status.code :: byteOf h.body.length :: h.body
  0x5A#8 :: (covered ++ [crc8 covered])

end Sys2Proof.Machine
end

