-- ==== Sys2Proof/Machine/Decoder.lean ====
section
/-! DEFINITION. The end of an exchange at a port, and the decoder's checks that come before a request's own fields
(R138 to R145, R189 to R194). -/

namespace Sys2Proof.Machine

/-! ### Replies -/

/-- A refusal changes nothing and has an empty body (R140). -/
def refuse (st : Status) (s : State) : State × Reply := (s, { status := st, body := [] })

/-- A refusal with a body, of the three that have one (R140). -/
def refuseWith (st : Status) (body : List Byte) (s : State) : State × Reply := (s, { status := st, body := body })

/-- A request carried out (R139). -/
def accept (body : List Byte) (s : State) : State × Reply := (s, { status := .ok, body := body })

/-! ### The tables of the requests -/

/-- R141: the supervisor requests. -/
def Request.supervisor : Request → Bool
  | .status => false | .queryDomain => false | .queryLease => false | .listLeases => false | .acquire => false
  | .renew => false | .modify => false | .release => false | .takeNotice => false | .detach => false
  | .defineDomain => true | .defineWake => true | .setWindow => true | .clearWindow => true
  | .setWakeEnable => true | .queryWake => true | .start => true | .restart => true | .revoke => true
  | .evict => true | .clearFault => true

/-- Taken in every part state. -/
def admitAlways (_ : PartState) : Option Status := none

/-- Taken in SETUP alone (R170). -/
def admitSetup (ps : PartState) : Option Status := if ps = .setup then none else some .notInSetup

/-- Taken in RUN alone (R142, R170). -/
def admitRun (ps : PartState) : Option Status := if ps = .run then none else some .notRunning

/-- Taken in SETUP and RUN (R142, R170). -/
def admitUnlessStopping (ps : PartState) : Option Status := if ps = .stopping then some .notRunning else none

/-- R142, R170: the refusal that the part state gives, none where the request is taken. -/
def Request.admission : Request → PartState → Option Status
  | .status => admitAlways
  | .queryDomain => admitAlways
  | .queryLease => admitAlways
  | .listLeases => admitAlways
  | .acquire => admitRun
  | .renew => admitRun
  | .modify => admitRun
  | .release => admitRun
  | .takeNotice => admitAlways
  | .detach => admitUnlessStopping
  | .defineDomain => admitSetup
  | .defineWake => admitSetup
  | .setWindow => admitUnlessStopping
  | .clearWindow => admitUnlessStopping
  | .setWakeEnable => admitRun
  | .queryWake => admitAlways
  | .start => admitSetup
  | .restart => admitRun
  | .revoke => admitRun
  | .evict => admitRun
  | .clearFault => admitUnlessStopping

/-- R143, R171: the one body length of each request. -/
def Request.bodyLength : Request → Nat
  | .status => 0 | .queryDomain => 1 | .queryLease => 2 | .listLeases => 1 | .acquire => 8 | .renew => 4
  | .modify => 3 | .release => 2 | .takeNotice => 0 | .detach => 0 | .defineDomain => 10 | .defineWake => 10
  | .setWindow => 10 | .clearWindow => 1 | .setWakeEnable => 2 | .queryWake => 1 | .start => 0 | .restart => 0
  | .revoke => 2 | .evict => 1 | .clearFault => 1

/-- R139, steps 3 to 5: the refusal before any field is read. -/
def State.earlyRefusal (s : State) (r : Request) (p : Agent) (body : List Byte) : Option Status :=
  if r.supervisor = true ∧ p ≠ 0 then some .notSupervisor
  else
    match r.admission s.partState with
    | some st => some st
    | none => if body.length ≠ r.bodyLength then some .badLength else none

/-- R139: the early checks, then the request's own checks and effect. -/
def checked (r : Request) (own : Agent → List Byte → State → State × Reply) (p : Agent) (body : List Byte) (s : State) :
    State × Reply :=
  match s.earlyRefusal r p body with
  | some st => refuse st s
  | none => own p body s

/-! ### The port -/

/-- R169, R196: the port takes exchanges: no reset is held, and its chip select has been seen deasserted. -/
def State.takesExchange (s : State) (p : Agent) : Bool :=
  !s.resetHeld && !(s.port p).awaitsDeselect

/-- R188: the first n bytes that a port shifts out in an exchange that begins now: the held reply, then 0xFF. A port that
takes no exchange shifts out none (R196; log 23). -/
def State.shiftOut (s : State) (p : Agent) (n : Nat) : List Byte :=
  if s.takesExchange p = true then (replyFrame (s.port p).held ++ List.replicate n 0xFF#8).take n else []

/-- R188: the bits that a port shifts out in the first n clock cycles of an exchange that begins now. The bits of a final
group of fewer than eight cycles are the leading bits of the next byte. -/
def State.shiftOutBits (s : State) (p : Agent) (n : Nat) : List Bool :=
  ((s.shiftOut p (n / 8 + 1)).flatMap byteBits).take n

/-- The level at an output pin that is not always driven. -/
inductive PinLevel where
  | low | high | highImpedance
  deriving DecidableEq, Repr

/-- A pin that is driven. -/
def PinLevel.driven (level : Bool) : PinLevel := if level then .high else .low

/-- R188, R202: the level at the SDO pin of a port in clock cycle n, counted from 0, of its chip select's assertion: high
impedance while chip select is deasserted and while a reset is held, and in an exchange that began in this state the bit
shifted out. Of a port that stands selected while it takes no exchange (R196) the spec states no level: it is the free
argument (log 23). -/
def State.sdoPin (s : State) (p : Agent) (selected : Bool) (n : Nat) (free : PinLevel) : PinLevel :=
  if s.resetHeld = true ∨ selected = false then .highImpedance
  else
    match (s.shiftOutBits p (n + 1))[n]? with
    | some bit => .driven bit
    | none => free

/-- R192: the BAD_FRAME reply replaces the held reply; the last sequence stays. -/
def holdBadFrame (p : Agent) (echo : Byte) (s : State) : State :=
  s.setPort p { s.port p with held := { echo := echo, status := .badFrame, body := [] } }

/-- R193, R194: the reply to an executed request becomes the held reply; a sequence other than 0 becomes the last. -/
def holdReply (p : Agent) (seq : Byte) (r : Reply) (s : State) : State :=
  s.setPort p { s.port p with
    held := { echo := seq, status := r.status, body := r.body }
    lastSeq := if seq = 0 then (s.port p).lastSeq else some seq }

/-- R193: the frame's sequence is the port's last sequence. -/
def State.repeats (s : State) (p : Agent) (seq : Byte) : Bool :=
  seq != 0 && (s.port p).lastSeq == some seq

/-- R193, R194: the end event of an exchange that carried a good frame. A body longer than a frame can declare is a
bad frame (R190; log 10). -/
def frameEnd (own : Agent → List Byte → State → State × Reply) (p : Agent) (seq : Byte) (body : List Byte) (s : State) :
    State :=
  if s.takesExchange p = false then s
  else if Config.maxRequestBody < body.length then holdBadFrame p seq s
  else if s.repeats p seq = true then s
  else holdReply p seq (own p body s).2 (own p body s).1

end Sys2Proof.Machine
end

