-- ==== Sys2Proof/Machine/AgentRequests.lean ====
section
/-! DEFINITION. The requests open to every agent: their own checks, effect and reply (chapter 9). -/

namespace Sys2Proof.Machine

/-! ### Reading requests -/

/-- R147. -/
def doStatus (p : Agent) (_body : List Byte) (s : State) : State × Reply :=
  accept [s.partState.code, byteOf (s.slotsOf p).length, byteOf (s.queue p).length, byteOf s.freeSlots.length,
    byteOf s.freeUnits] s

/-- R17, R148: the seven values of a managed domain. -/
def domainReport (s : State) (d : Managed) : List Byte :=
  [yesNoCode (s.record d).isSome, (s.engine d).state.code, (s.assuredOf d).code, (s.target d).code,
    byteOf (s.list d).length, faultCauseCode (s.engine d).cause, yesNoCode (s.engine d).drainComplete]

/-- R149: the fixed values reported for D0. -/
def rootReport : List Byte :=
  [yesNoCode true, EngineState.boost.code, Level.boost.code, Level.boost.code, 0, faultCauseCode none, yesNoCode false]

/-- R148, R149. -/
def doQueryDomain (_p : Agent) (body : List Byte) (s : State) : State × Reply :=
  match decodeDomain (byteAt body 0) with
  | none => refuse .badValue s
  | some d =>
    match asManaged d with
    | some m => accept (domainReport s m) s
    | none => accept rootReport s

/-- R150, R151. -/
def doQueryLease (_p : Agent) (body : List Byte) (s : State) : State × Reply :=
  match decodeHandle body with
  | none => refuse .badValue s
  | some h =>
    match s.named h with
    | none => refuse .staleHandle s
    | some l => accept (leaseBytes h l) s

/-- R152: the entries of a domain's lease list, in list order. -/
def listEntries (s : State) (d : Managed) : List Byte :=
  (s.list d).flatMap fun i =>
    match s.lease i with
    | some l => leaseEntry (s.handle i) l
    | none => []

/-- R152. -/
def doListLeases (_p : Agent) (body : List Byte) (s : State) : State × Reply :=
  match decodeDomain (byteAt body 0) with
  | none => refuse .badValue s
  | some d =>
    match asManaged d with
    | some m => accept (byteOf (s.list m).length :: listEntries s m) s
    | none => accept [0] s

/-! ### Lease requests -/

/-- R154: the window that a term names is defined. -/
def State.windowDefined (s : State) (t : Term) : Bool :=
  match t.window? with
  | some w => (s.window w).range.isSome
  | none => true

/-- R154, the meaning pass: the managed domain, or the refusal. -/
def acquireMeaning (s : State) (f : AcquireFields) : Except Status Managed :=
  match asManaged f.domain with
  | none => .error .noDomain
  | some d =>
    match s.record d with
    | none => .error .noDomain
    | some r =>
      if f.level = .off ∨ r.maxLevel.num < f.level.num then .error .badLevel
      else if s.windowDefined f.term = false then .error .noWindow
      else .ok d

/-- R154, the object checks: the slot of the new lease, or the refusal. -/
def acquireSlot (s : State) (p : Agent) (d : Managed) : Except Status SlotId :=
  if s.faultAtOrAbove d = true then .error .domainFault
  else
    match s.shortfall p, s.lowestFree with
    | some .quota, _ => .error .quota
    | some .table, _ => .error .tableFull
    | none, none => .error .tableFull
    | none, some i => .ok i

/-- R155: the new lease is made; the reply names it. -/
def makeLease (p : Agent) (f : AcquireFields) (d : Managed) (i : SlotId) (s : State) : State × Reply :=
  let l := newLease p d f.term f.level f.tag .request (s.assuredOf d)
  accept (handleBytes (s.handle i) ++ [l.state.code, (s.assuredOf d).code]) (placeLease i l s)

/-- R153 to R155. -/
def doAcquire (p : Agent) (body : List Byte) (s : State) : State × Reply :=
  match decodeAcquire body with
  | none => refuse .badValue s
  | some f =>
    match acquireMeaning s f with
    | .error st => refuse st s
    | .ok d =>
      match acquireSlot s p d with
      | .error st => refuse st s
      | .ok i => makeLease p f d i s

/-- R145: the lease a handle names and the requesting agent holds, or the refusal. -/
def ownLease (s : State) (p : Agent) (h : Handle) : Except Status Lease :=
  match s.named h with
  | none => .error .staleHandle
  | some l => if l.holder = p then .ok l else .error .notHolder

/-- R157: the renewal and its reply. -/
def renewLease (i : SlotId) (time : Option Nat) (l : Lease) (s : State) : State × Reply :=
  accept ((l.renew time).state.code :: (timeBytes (l.renew time).term.time ++
    timeBytes (l.renew time).state.countdown)) (s.setLease i (l.renew time))

/-- R156: the time of RENEW; 0 keeps the stored value. -/
def renewTime (body : List Byte) : Option Nat :=
  if fieldAt body 2 2 = 0 then none else some (fieldAt body 2 2)

/-- R156, R157. -/
def doRenew (p : Agent) (body : List Byte) (s : State) : State × Reply :=
  match decodeHandle body with
  | none => refuse .badValue s
  | some h =>
    match ownLease s p h with
    | .error st => refuse st s
    | .ok l =>
      match l.state with
      | .ended cause => refuseWith .leaseEnded [cause.code] s
      | _ =>
        match l.term with
        | .standing => refuse .wrongKind s
        | _ => renewLease h.slot (renewTime body) l s

/-- R158, the meaning pass: the level is refused BAD_LEVEL. A stale handle names no domain to compare with. -/
def modifyBadLevel (s : State) (h : Handle) (level : Level) : Bool :=
  level == .off ||
    match s.named h with
    | none => false
    | some l =>
      match s.record l.domain with
      | some r => r.maxLevel.num < level.num
      | none => false

/-- R127, R159: the lease is changed, and a queued GRANTED notice takes a changed granted level. -/
def modifyLease (i : SlotId) (level : Level) (l : Lease) (s : State) : State × Reply :=
  let m := l.modify level (s.assuredOf l.domain)
  let changed := s.setLease i m
  accept [m.state.code, m.wanted.code, grantedCode m.granted, (s.assuredOf l.domain).code]
    (match m.granted with
     | some g => if l.granted ≠ some g then changed.relevelQueued l.holder i g else changed
     | none => changed)

/-- R158, R159. -/
def doModify (p : Agent) (body : List Byte) (s : State) : State × Reply :=
  match decodeHandle body, decodeLevel (byteAt body 2) with
  | some h, some level =>
    if modifyBadLevel s h level = true then refuse .badLevel s
    else
      match ownLease s p h with
      | .error st => refuse st s
      | .ok l =>
        match l.state with
        | .ended cause => refuseWith .leaseEnded [cause.code] s
        | _ => modifyLease h.slot level l s
  | _, _ => refuse .badValue s

/-- R160, R161. -/
def doRelease (p : Agent) (body : List Byte) (s : State) : State × Reply :=
  match decodeHandle body with
  | none => refuse .badValue s
  | some h =>
    match ownLease s p h with
    | .error st => refuse st s
    | .ok l => accept [l.state.code, l.state.causeCode] (freeSlot h.slot s)

/-! ### Notices and detaching -/

/-- R41, R132: what taking a notice does beyond the queue: an ENDED notice frees its slot. -/
def takenEffect (n : Notice) (s : State) : State :=
  match n with
  | .ended h _ => freeSlot h.slot s
  | .granted _ _ => s
  | .wake _ _ _ => s
  | .fault _ _ _ => s

/-- R132, R162. -/
def doTakeNotice (p : Agent) (_body : List Byte) (s : State) : State × Reply :=
  match s.queue p with
  | [] => accept [0] s
  | n :: rest =>
    accept (byteOf ((takenEffect n (s.setQueue p rest)).queue p).length :: noticeEntry n)
      (takenEffect n (s.setQueue p rest))

/-- R42, R134: every slot of an agent is freed and its queue emptied. -/
def detachAgent (a : Agent) (s : State) : State :=
  (freeSlots (s.slotsOf a) s).setQueue a []

/-- R164, R185: the counts of slots freed and of notices removed. -/
def detachCounts (a : Agent) (s : State) : List Byte :=
  [byteOf (s.slotsOf a).length, byteOf (s.queue a).length]

/-- R163, R164. -/
def doDetach (p : Agent) (_body : List Byte) (s : State) : State × Reply :=
  accept (detachCounts p s) (detachAgent p s)

/-! ### The commands -/

/-- R147. -/
def execStatus (p : Agent) (seq : Byte) (body : List Byte) (s : State) : Host.Outcome State Fault Refusal :=
  .next (frameEnd (checked .status doStatus) p seq body s)

/-- R148. -/
def execQueryDomain (p : Agent) (seq : Byte) (body : List Byte) (s : State) : Host.Outcome State Fault Refusal :=
  .next (frameEnd (checked .queryDomain doQueryDomain) p seq body s)

/-- R150. -/
def execQueryLease (p : Agent) (seq : Byte) (body : List Byte) (s : State) : Host.Outcome State Fault Refusal :=
  .next (frameEnd (checked .queryLease doQueryLease) p seq body s)

/-- R152. -/
def execListLeases (p : Agent) (seq : Byte) (body : List Byte) (s : State) : Host.Outcome State Fault Refusal :=
  .next (frameEnd (checked .listLeases doListLeases) p seq body s)

/-- R155. -/
def execAcquire (p : Agent) (seq : Byte) (body : List Byte) (s : State) : Host.Outcome State Fault Refusal :=
  .next (frameEnd (checked .acquire doAcquire) p seq body s)

/-- R157. -/
def execRenew (p : Agent) (seq : Byte) (body : List Byte) (s : State) : Host.Outcome State Fault Refusal :=
  .next (frameEnd (checked .renew doRenew) p seq body s)

/-- R159. -/
def execModify (p : Agent) (seq : Byte) (body : List Byte) (s : State) : Host.Outcome State Fault Refusal :=
  .next (frameEnd (checked .modify doModify) p seq body s)

/-- R161. -/
def execRelease (p : Agent) (seq : Byte) (body : List Byte) (s : State) : Host.Outcome State Fault Refusal :=
  .next (frameEnd (checked .release doRelease) p seq body s)

/-- R132, R162. -/
def execTakeNotice (p : Agent) (seq : Byte) (body : List Byte) (s : State) : Host.Outcome State Fault Refusal :=
  .next (frameEnd (checked .takeNotice doTakeNotice) p seq body s)

/-- R164. -/
def execDetach (p : Agent) (seq : Byte) (body : List Byte) (s : State) : Host.Outcome State Fault Refusal :=
  .next (frameEnd (checked .detach doDetach) p seq body s)

end Sys2Proof.Machine
end

