-- ==== Sys2Proof/Machine/SupervisorRequests.lean ====
section
/-! DEFINITION. The supervisor requests: their own checks, effect and reply (chapter 10). -/

namespace Sys2Proof.Machine

/-! ### Configuration -/

/-- R7, R172, R173. -/
def doDefineDomain (_p : Agent) (body : List Byte) (s : State) : State × Reply :=
  match decodeDefineDomain body with
  | none => refuse .badValue s
  | some (d, r) => if (s.engine d).state = .fault then refuse .domainFault s else accept [] (s.setRecord d r)

/-- R121, R174. -/
def doDefineWake (_p : Agent) (body : List Byte) (s : State) : State × Reply :=
  match decodeDefineWake body with
  | none => refuse .badValue s
  | some (k, w) => accept [] (s.setWake k w)

/-- R107, R175. -/
def doSetWindow (_p : Agent) (body : List Byte) (s : State) : State × Reply :=
  match decodeSetWindow body with
  | none => refuse .badValue s
  | some (w, range) =>
    accept [byteOf (s.window w).users] (s.setWindow w { s.window w with range := some range })

/-- R107, R176. -/
def doClearWindow (_p : Agent) (body : List Byte) (s : State) : State × Reply :=
  match decodeWindow (byteAt body 0) with
  | none => refuse .badValue s
  | some w =>
    if 0 < (s.window w).users then refuseWith .windowInUse [byteOf (s.window w).users] s
    else accept [] (s.setWindow w { s.window w with range := none })

/-- R179: the maximum level a floor is compared with; D0 meets any floor. -/
def State.maxLevel (s : State) (d : Domain) : Level :=
  match asManaged d with
  | some m =>
    match s.record m with
    | some r => r.maxLevel
    | none => .off
  | none => .boost

/-- R179, order 2: a domain passes; an undefined domain is not checked. -/
def domainPasses (s : State) (d : Managed) : Bool :=
  match s.record d with
  | some r => s.defined r.parent && r.floor.num ≤ (s.maxLevel r.parent).num
  | none => true

/-- R122, R179: the checks of one wake record, enabled or not: home domain, template domain, template level. -/
def lineValid (s : State) (w : WakeLine) : Bool :=
  s.defined w.home &&
    match w.template with
    | some t =>
      match s.record t.domain with
      | some r => t.level.num ≤ r.maxLevel.num
      | none => false
    | none => true

/-- R179, order 3: a line passes; a disabled line is not checked. -/
def linePasses (s : State) (k : LineId) : Bool :=
  !(s.wake k).enabled || lineValid s (s.wake k)

/-- R198, R200: the body of BAD_CONFIG for a domain. -/
def badDomainBody (d : Managed) : List Byte := [1, managedCode d]

/-- R198, R200: the body of BAD_CONFIG for a wake line. -/
def badLineBody (k : LineId) : List Byte := [2, byteOf k.val]

/-- R122, R177. -/
def doSetWakeEnable (_p : Agent) (body : List Byte) (s : State) : State × Reply :=
  match decodeSetWakeEnable body with
  | none => refuse .badValue s
  | some (k, enable) =>
    if enable = true ∧ (s.wake k).enabled = false ∧ lineValid s (s.wake k) = false then
      refuseWith .badConfig (badLineBody k) s
    else
      let after :=
        if enable = (s.wake k).enabled then s
        else refreshDetectors (s.setWake k { s.wake k with enabled := enable, link := none })
      accept [yesNoCode (after.wake k).enabled, yesNoCode (after.detectorActive k)] after

/-- R178, R200: the record, the link and the detector's activity. -/
def wakeReport (s : State) (k : LineId) : List Byte :=
  [yesNoCode (s.wake k).enabled, (s.wake k).edge.code, byteOf (s.wake k).agent.val, byteOf (s.wake k).home.val] ++
    templateBytes (s.wake k).template ++ linkBytes (s.wake k).link ++ [yesNoCode (s.detectorActive k)]

/-- R178. -/
def doQueryWake (_p : Agent) (body : List Byte) (s : State) : State × Reply :=
  match decodeLine (byteAt body 0) with
  | none => refuse .badValue s
  | some k => accept (wakeReport s k) s

/-! ### The part state -/

/-- R179, R180. -/
def doStart (_p : Agent) (_body : List Byte) (s : State) : State × Reply :=
  if allManaged.any (fun d => (s.engine d).state == .fault) then refuse .domainFault s
  else
    match allManaged.find? fun d => !domainPasses s d with
    | some d => refuseWith .badConfig (badDomainBody d) s
    | none =>
      match allLines.find? fun k => !linePasses s k with
      | some k => refuseWith .badConfig (badLineBody k) s
      | none => accept [] (refreshDetectors { s with partState := .run })

/-- R134: all four queues are emptied. -/
def emptyQueues (s : State) : State := { s with queues := Vector.replicate 4 [] }

/-- R43, R181: the leases, the queues, the part state with the end of STOPPING, and the detectors. -/
def restartPart (s : State) : State :=
  refreshDetectors (endStopping { emptyQueues (freeSlots s.usedSlots s) with partState := .stopping })

/-- R181. -/
def doRestart (_p : Agent) (_body : List Byte) (s : State) : State × Reply :=
  accept [byteOf s.usedSlots.length, (restartPart s).partState.code] (restartPart s)

/-! ### Leases of any holder -/

/-- R37, R184. -/
def doRevoke (_p : Agent) (body : List Byte) (s : State) : State × Reply :=
  match decodeHandle body with
  | none => refuse .badValue s
  | some h =>
    match s.named h with
    | none => refuse .staleHandle s
    | some l =>
      match l.state with
      | .ended cause => refuseWith .leaseEnded [cause.code] s
      | _ => accept [byteOf l.holder.val, l.state.code] (endLease h.slot .revoked s)

/-- R185. -/
def doEvict (_p : Agent) (body : List Byte) (s : State) : State × Reply :=
  match decodeAgent (byteAt body 0) with
  | none => refuse .badValue s
  | some a => accept (detachCounts a s) (detachAgent a s)

/-! ### Clearing a fault -/

/-- R94, order 2: a drain runs in d or in a descendant of d. -/
def State.drainBelow (s : State) (d : Managed) : Bool :=
  (s.engine d).drains || (s.descendants d).any fun e => (s.engine e).drains

/-- R95: the domain returns to OFF, an arrival. -/
def clearFaultOf (d : Managed) (s : State) : State :=
  closeEvent [d] s (arrive d .off (s.setEngine d { s.engine d with drainComplete := false }))

/-- R94, R186: the managed, defined domain a CLEAR_FAULT names, or the refusal. -/
def clearFaultDomain (s : State) (body : List Byte) : Except Status Managed :=
  match decodeDomain (byteAt body 0) with
  | none => .error .badValue
  | some d =>
    match asManaged d with
    | none => .error .noDomain
    | some m => if (s.record m).isSome then .ok m else .error .noDomain

/-- R94, R95, R186. -/
def doClearFault (_p : Agent) (body : List Byte) (s : State) : State × Reply :=
  match clearFaultDomain s body with
  | .error st => refuse st s
  | .ok d =>
    if (s.engine d).state ≠ .fault then refuse .notFaulted s
    else if s.drainBelow d = true then refuse .stillDraining s
    else if s.pgoodSeen d = true then refuse .stillPowered s
    else accept [faultCauseCode (s.engine d).cause] (clearFaultOf d s)

/-! ### The commands -/

/-- R173. -/
def execDefineDomain (p : Agent) (seq : Byte) (body : List Byte) (s : State) : Host.Outcome State Fault Refusal :=
  .next (frameEnd (checked .defineDomain doDefineDomain) p seq body s)

/-- R174. -/
def execDefineWake (p : Agent) (seq : Byte) (body : List Byte) (s : State) : Host.Outcome State Fault Refusal :=
  .next (frameEnd (checked .defineWake doDefineWake) p seq body s)

/-- R175. -/
def execSetWindow (p : Agent) (seq : Byte) (body : List Byte) (s : State) : Host.Outcome State Fault Refusal :=
  .next (frameEnd (checked .setWindow doSetWindow) p seq body s)

/-- R176. -/
def execClearWindow (p : Agent) (seq : Byte) (body : List Byte) (s : State) : Host.Outcome State Fault Refusal :=
  .next (frameEnd (checked .clearWindow doClearWindow) p seq body s)

/-- R177. -/
def execSetWakeEnable (p : Agent) (seq : Byte) (body : List Byte) (s : State) : Host.Outcome State Fault Refusal :=
  .next (frameEnd (checked .setWakeEnable doSetWakeEnable) p seq body s)

/-- R178. -/
def execQueryWake (p : Agent) (seq : Byte) (body : List Byte) (s : State) : Host.Outcome State Fault Refusal :=
  .next (frameEnd (checked .queryWake doQueryWake) p seq body s)

/-- R180. -/
def execStart (p : Agent) (seq : Byte) (body : List Byte) (s : State) : Host.Outcome State Fault Refusal :=
  .next (frameEnd (checked .start doStart) p seq body s)

/-- R181. -/
def execRestart (p : Agent) (seq : Byte) (body : List Byte) (s : State) : Host.Outcome State Fault Refusal :=
  .next (frameEnd (checked .restart doRestart) p seq body s)

/-- R184. -/
def execRevoke (p : Agent) (seq : Byte) (body : List Byte) (s : State) : Host.Outcome State Fault Refusal :=
  .next (frameEnd (checked .revoke doRevoke) p seq body s)

/-- R185. -/
def execEvict (p : Agent) (seq : Byte) (body : List Byte) (s : State) : Host.Outcome State Fault Refusal :=
  .next (frameEnd (checked .evict doEvict) p seq body s)

/-- R186. -/
def execClearFault (p : Agent) (seq : Byte) (body : List Byte) (s : State) : Host.Outcome State Fault Refusal :=
  .next (frameEnd (checked .clearFault doClearFault) p seq body s)

end Sys2Proof.Machine
end

