-- ==== Sys2Proof/Machine/PortEvents.lean ====
section
/-! DEFINITION. The ends of exchanges that name no request of their own: unknown codes, bad frames, retransmissions
and idle exchanges (R141, R189, R192, R193); and the command that an exchange is. -/

namespace Sys2Proof.Machine

/-- R138: the owner that carries out each request. -/
def Request.own : Request → Agent → List Byte → State → State × Reply
  | .status => doStatus
  | .queryDomain => doQueryDomain
  | .queryLease => doQueryLease
  | .listLeases => doListLeases
  | .acquire => doAcquire
  | .renew => doRenew
  | .modify => doModify
  | .release => doRelease
  | .takeNotice => doTakeNotice
  | .detach => doDetach
  | .defineDomain => doDefineDomain
  | .defineWake => doDefineWake
  | .setWindow => doSetWindow
  | .clearWindow => doClearWindow
  | .setWakeEnable => doSetWakeEnable
  | .queryWake => doQueryWake
  | .start => doStart
  | .restart => doRestart
  | .revoke => doRevoke
  | .evict => doEvict
  | .clearFault => doClearFault

/-- R139, R141: a request by its code; a code that names none is refused UNKNOWN_REQUEST whatever the rest. -/
def requestByCode (code : Byte) (p : Agent) (body : List Byte) (s : State) : State × Reply :=
  match Request.ofCode code with
  | some r => checked r r.own p body s
  | none => refuse .unknownRequest s

/-- R188, R189: the end event of an exchange, from the bits clocked in. -/
def exchangeEnd (p : Agent) (bits : List Bool) (s : State) : State :=
  match classifyExchange (wholeBytes bits) with
  | .idle => s
  | .bad echo => if s.takesExchange p = true then holdBadFrame p echo s else s
  | .good seq code body => frameEnd (requestByCode code) p seq body s

/-- The row that a request's frame is. -/
def Request.command (r : Request) (p : Agent) (seq : Byte) (body : List Byte) : Instr :=
  match r with
  | .status => .status p seq body
  | .queryDomain => .queryDomain p seq body
  | .queryLease => .queryLease p seq body
  | .listLeases => .listLeases p seq body
  | .acquire => .acquire p seq body
  | .renew => .renew p seq body
  | .modify => .modify p seq body
  | .release => .release p seq body
  | .takeNotice => .takeNotice p seq body
  | .detach => .detach p seq body
  | .defineDomain => .defineDomain p seq body
  | .defineWake => .defineWake p seq body
  | .setWindow => .setWindow p seq body
  | .clearWindow => .clearWindow p seq body
  | .setWakeEnable => .setWakeEnable p seq body
  | .queryWake => .queryWake p seq body
  | .start => .start p seq body
  | .restart => .restart p seq body
  | .revoke => .revoke p seq body
  | .evict => .evict p seq body
  | .clearFault => .clearFault p seq body

/-- R188 to R190, R193: the row of the table that an exchange is, at a port in a state, from the bits clocked in. -/
def exchangeCommand (s : State) (p : Agent) (bits : List Bool) : Instr :=
  match classifyExchange (wholeBytes bits) with
  | .idle => .idleExchange p bits
  | .bad _ => .badFrame p bits
  | .good seq code body =>
    if s.repeats p seq = true then .retransmission p seq code body
    else
      match Request.ofCode code with
      | some r => r.command p seq body
      | none => .unknownRequest p seq code body

/-- R141. -/
def execUnknownRequest (p : Agent) (seq code : Byte) (body : List Byte) (s : State) : Host.Outcome State Fault Refusal :=
  .next (frameEnd (requestByCode code) p seq body s)

/-- R192. -/
def execBadFrame (p : Agent) (bits : List Bool) (s : State) : Host.Outcome State Fault Refusal :=
  .next (exchangeEnd p bits s)

/-- R193: under another sequence than the last the frame is executed. -/
def execRetransmission (p : Agent) (seq code : Byte) (body : List Byte) (s : State) : Host.Outcome State Fault Refusal :=
  .next (frameEnd (requestByCode code) p seq body s)

/-- R189. -/
def execIdleExchange (p : Agent) (bits : List Bool) (s : State) : Host.Outcome State Fault Refusal :=
  .next (exchangeEnd p bits s)

end Sys2Proof.Machine
end

