-- ==== Sys2Proof/Machine/TimeEvents.lean ====
section
/-! DEFINITION. The millisecond tick and the expiries it brings (R30, R51, R57 to R64, R88; log 5, log 6). -/

namespace Sys2Proof.Machine

/-- R51: every running step timer is lowered by one. -/
def lowerTimers (s : State) : State :=
  { s with engines := s.engines.map fun e => { e with timer := e.timer.map fun n => n - 1 } }

/-- R30: the lease table's share of the tick, in ascending slot order. -/
def tickLeases (s : State) : State := allSlots.foldl tickLease s

/-- R30, R51. -/
def execTick (s : State) : Host.Outcome State Fault Refusal :=
  .next (if s.resetHeld = true then s else lowerTimers (tickLeases s))

/-- R30, R36, R45: the expiry of one lease at the coming tick (log 5, log 22). -/
def execLeaseExpiry (i : SlotId) (s : State) : Host.Outcome State Fault Refusal :=
  .next (if s.resetHeld = true then s else takeExpiry i (settleMarks s))

/-- An expiry event of an engine: taken when its timed state's timer has run out, and nothing otherwise. -/
def onExpiry (st : EngineState) (d : Managed) (effect : State → State) (s : State) : State :=
  if s.resetHeld = false ∧ s.expiryDue d st = true then effect s else s

/-- R88: the fault drain is complete; the domain stops holding its parent. -/
def completeDrain (d : Managed) (s : State) : State :=
  s.setEngine d { s.engine d with timer := none, drainComplete := true }

/-- R64: the drain-end check reads PGOOD. -/
def endDrain (d : Managed) (s : State) : State :=
  if s.pgoodSeen d = true then takeFault d .stuckRail s else closeEvent [d] s (arrive d .off s)

/-- R57. -/
def execRailUpExpiry (d : Managed) (s : State) : Host.Outcome State Fault Refusal :=
  .next (onExpiry .railUp d (takeFault d .riseTimeout) s)

/-- R58. -/
def execSettleExpiry (d : Managed) (s : State) : Host.Outcome State Fault Refusal :=
  .next (onExpiry .settle d (fun t => closeEvent [d] t (endSettle d t)) s)

/-- R59. -/
def execClockUpExpiry (d : Managed) (s : State) : Host.Outcome State Fault Refusal :=
  .next (onExpiry .clockUp d (takeFault d .clockTimeout) s)

/-- R60. -/
def execBoostUpExpiry (d : Managed) (s : State) : Host.Outcome State Fault Refusal :=
  .next (onExpiry .boostUp d (fun t => closeEvent [d] t (arrive d .boost t)) s)

/-- R61. -/
def execBoostDownExpiry (d : Managed) (s : State) : Host.Outcome State Fault Refusal :=
  .next (onExpiry .boostDown d (fun t => closeEvent [d] t (arrive d .run t)) s)

/-- R64. -/
def execDrainEnd (d : Managed) (s : State) : Host.Outcome State Fault Refusal :=
  .next (onExpiry .draining d (endDrain d) s)

/-- R88. -/
def execFaultDrainExpiry (d : Managed) (s : State) : Host.Outcome State Fault Refusal :=
  .next (onExpiry .fault d (fun t => closeEvent [d] t (completeDrain d t)) s)

end Sys2Proof.Machine
end

