-- ==== Sys2Proof/Machine/Dispatch.lean ====
section
/-! DEFINITION. One arm for each command. -/

namespace Sys2Proof.Machine

-- The command's effect on everything but the queue.
def exec (i : Instr) (s : State) : Host.Outcome State Fault Refusal :=
  match i with
  | .status p seq body => Sys2Proof.Machine.execStatus p seq body s
  | .queryDomain p seq body => Sys2Proof.Machine.execQueryDomain p seq body s
  | .queryLease p seq body => Sys2Proof.Machine.execQueryLease p seq body s
  | .listLeases p seq body => Sys2Proof.Machine.execListLeases p seq body s
  | .acquire p seq body => Sys2Proof.Machine.execAcquire p seq body s
  | .renew p seq body => Sys2Proof.Machine.execRenew p seq body s
  | .modify p seq body => Sys2Proof.Machine.execModify p seq body s
  | .release p seq body => Sys2Proof.Machine.execRelease p seq body s
  | .takeNotice p seq body => Sys2Proof.Machine.execTakeNotice p seq body s
  | .detach p seq body => Sys2Proof.Machine.execDetach p seq body s
  | .defineDomain p seq body => Sys2Proof.Machine.execDefineDomain p seq body s
  | .defineWake p seq body => Sys2Proof.Machine.execDefineWake p seq body s
  | .setWindow p seq body => Sys2Proof.Machine.execSetWindow p seq body s
  | .clearWindow p seq body => Sys2Proof.Machine.execClearWindow p seq body s
  | .setWakeEnable p seq body => Sys2Proof.Machine.execSetWakeEnable p seq body s
  | .queryWake p seq body => Sys2Proof.Machine.execQueryWake p seq body s
  | .start p seq body => Sys2Proof.Machine.execStart p seq body s
  | .restart p seq body => Sys2Proof.Machine.execRestart p seq body s
  | .revoke p seq body => Sys2Proof.Machine.execRevoke p seq body s
  | .evict p seq body => Sys2Proof.Machine.execEvict p seq body s
  | .clearFault p seq body => Sys2Proof.Machine.execClearFault p seq body s
  | .unknownRequest p seq code body => Sys2Proof.Machine.execUnknownRequest p seq code body s
  | .badFrame p bits => Sys2Proof.Machine.execBadFrame p bits s
  | .retransmission p seq code body => Sys2Proof.Machine.execRetransmission p seq code body s
  | .idleExchange p bits => Sys2Proof.Machine.execIdleExchange p bits s
  | .tapWord bits => Sys2Proof.Machine.execTapWord bits s
  | .lineEvent line level => Sys2Proof.Machine.execLineEvent line level s
  | .pgoodAsserted d => Sys2Proof.Machine.execPgoodAsserted d s
  | .pgoodDeasserted d => Sys2Proof.Machine.execPgoodDeasserted d s
  | .ckokAsserted d => Sys2Proof.Machine.execCkokAsserted d s
  | .ckokDeasserted d => Sys2Proof.Machine.execCkokDeasserted d s
  | .tick => Sys2Proof.Machine.execTick s
  | .leaseExpiry slot => Sys2Proof.Machine.execLeaseExpiry slot s
  | .railUpExpiry d => Sys2Proof.Machine.execRailUpExpiry d s
  | .settleExpiry d => Sys2Proof.Machine.execSettleExpiry d s
  | .clockUpExpiry d => Sys2Proof.Machine.execClockUpExpiry d s
  | .boostUpExpiry d => Sys2Proof.Machine.execBoostUpExpiry d s
  | .boostDownExpiry d => Sys2Proof.Machine.execBoostDownExpiry d s
  | .drainEnd d => Sys2Proof.Machine.execDrainEnd d s
  | .faultDrainExpiry d => Sys2Proof.Machine.execFaultDrainExpiry d s
  | .stepBegin d => Sys2Proof.Machine.execStepBegin d s
  | .rampGrant => Sys2Proof.Machine.execRampGrant s
  | .levelReachedReport d => Sys2Proof.Machine.execLevelReachedReport d s
  | .partReset => Sys2Proof.Machine.execPartReset s
  | .partResetRelease cs tfrm => Sys2Proof.Machine.execPartResetRelease cs tfrm s
  | .chipSelectDeasserted p => Sys2Proof.Machine.execChipSelectDeasserted p s
  | .tfrmDeasserted => Sys2Proof.Machine.execTfrmDeasserted s

end Sys2Proof.Machine
end

