-- ==== Sys2Proof/Safety.lean ====
section
/-! DEFINITION. The laws that the rules say the part keeps in every state it reaches, as properties of State. -/

namespace Sys2Proof.Machine

/-! ### The configuration -/

/-- R4: the ranges of a configuration record of domain d, and which of its fields are present. -/
def DomainRecord.inRange (d : Managed) (r : DomainRecord) : Prop :=
  r.parent.val ≤ d.val ∧ r.floor ≠ .off ∧ r.maxLevel ≠ .off ∧
  1 ≤ r.weight ∧ r.weight ≤ 8 ∧
  1 ≤ r.pgoodTimeout ∧ r.pgoodTimeout ≤ 255 ∧ r.settle ≤ 255 ∧
  (r.clockTimeout.isSome = true ↔ Level.retain.num < r.maxLevel.num) ∧ (∀ n ∈ r.clockTimeout, 1 ≤ n ∧ n ≤ 255) ∧
  (r.boostSettle.isSome = true ↔ r.maxLevel = .boost) ∧ (∀ n ∈ r.boostSettle, n ≤ 255) ∧
  1 ≤ r.drain ∧ r.drain ≤ 255

/-- R4, R5: "A record never holds a value outside the ranges of R4." -/
def recordLaw (s : State) : Prop := ∀ d, ∀ r ∈ s.record d, r.inRange d

/-- R111: the ranges of a template. -/
def templateLaw (s : State) : Prop :=
  ∀ k, ∀ t ∈ (s.wake k).template, t.level ≠ .off ∧ 1 ≤ t.duration ∧ t.duration ≤ 65535

/-- R101: the ranges of a window. -/
def windowLaw (s : State) : Prop :=
  ∀ w, ∀ r ∈ (s.window w).range, 1 ≤ r.length ∧ r.base.toNat + r.length ≤ Config.addressSpace

/-- The configuration is in range. -/
def configurationLaw (s : State) : Prop := recordLaw s ∧ templateLaw s ∧ windowLaw s

/-- R179: outside SETUP the checks of START stand. -/
def startLaw (s : State) : Prop :=
  s.partState ≠ .setup → (∀ d, domainPasses s d = true) ∧ (∀ k, linePasses s k = true)

/-! ### The lease table -/

/-- The slot holds a live lease on the domain. -/
def State.liveOn (s : State) (d : Managed) (i : SlotId) : Bool :=
  (s.lease i).any fun l => l.live && l.domain == d

/-- The slot holds a live watched lease on the window (R102). -/
def State.watches (s : State) (w : WindowId) (i : SlotId) : Bool :=
  (s.lease i).any fun l => l.live && l.term.window? == some w

/-- R25: a domain's list holds its live leases, each once. -/
def listLaw (s : State) : Prop :=
  ∀ d, (s.list d).Nodup ∧ ∀ i, i ∈ s.list d ↔ s.liveOn d i = true

/-- R43, R167: outside RUN every slot is FREE. -/
def emptyLaw (s : State) : Prop := s.partState ≠ .run → ∀ i, s.lease i = none

/-- R102: a window's users count is the number of live watched leases that name it, and a used window is defined. -/
def usersLaw (s : State) : Prop :=
  ∀ w, (s.window w).users = (allSlots.filter (s.watches w)).length ∧
    (0 < (s.window w).users → (s.window w).range.isSome = true)

/-- R24: no agent holds more than 16 slots that are not FREE. -/
def quotaLaw (s : State) : Prop := ∀ a, (s.slotsOf a).length ≤ Config.quota

/-- R112: what the lease that a line's link names is. -/
def State.linkNames (s : State) (k : LineId) (h : Handle) : Bool :=
  (s.named h).any fun l =>
    l.live && l.holder == (s.wake k).agent && some l.domain == (s.wake k).template.map Template.domain &&
      l.origin == .line k && l.tag == 0 && l.term.code == 1

/-- R112: "a present link always names a live lease", made by the line. -/
def linkLaw (s : State) : Prop := ∀ k, ∀ h ∈ (s.wake k).link, s.linkNames k h = true

/-- R20: the time of a kind that has one is 1 to 65535 ms. -/
def Term.inRange (t : Term) : Prop := ∀ n ∈ t.time, 1 ≤ n ∧ n ≤ 65535

/-- R19, R33: a countdown is present exactly when the lease is HELD and not STANDING, a granted level from the first
grant on and never above the wanted level. -/
def Lease.lawful (l : Lease) : Prop :=
  l.wanted ≠ .off ∧ l.term.inRange ∧ grantedNum l.granted ≤ l.wanted.num ∧
  match l.state with
  | .pending => l.granted = none
  | .held countdown =>
    l.granted.isSome = true ∧ countdown.isSome = l.term.time.isSome ∧ ∀ c ∈ countdown, 1 ≤ c.left ∧ c.left ≤ 65535
  | .ended _ => True

/-- R19, R33, for every slot. -/
def leaseLaw (s : State) : Prop := ∀ i, ∀ l ∈ s.lease i, l.lawful

/-- The lease table and what it keeps for windows and wake records. -/
def tableLaw (s : State) : Prop :=
  listLaw s ∧ emptyLaw s ∧ usersLaw s ∧ quotaLaw s ∧ linkLaw s ∧ leaseLaw s

/-- R33: "A HELD lease's granted level is never above the assured level of its domain." -/
def grantedLaw (s : State) : Prop :=
  ∀ i, ∀ l ∈ s.lease i, l.live = true → grantedNum l.granted ≤ (s.assuredOf l.domain).num

/-- R15: a live lease wants no more than its domain's maximum level. -/
def wantedLaw (s : State) : Prop :=
  ∀ i, ∀ l ∈ s.lease i, l.live = true → (s.record l.domain).any (fun r => l.wanted.num ≤ r.maxLevel.num) = true

/-! ### The engines and the arbiter -/

/-- The states that a timer runs in (R48); FAULT has one while its drain runs. -/
def Engine.timed (e : Engine) : Bool :=
  match e.state with
  | .railUp => true
  | .settle => true
  | .clockUp => true
  | .boostUp => true
  | .boostDown => true
  | .draining => true
  | .fault => !e.drainComplete
  | _ => false

/-- R48: when a step timer is present, and R17: "Outside FAULT it reads no." -/
def timerLaw (s : State) : Prop :=
  ∀ d, (s.engine d).timer.isSome = (s.engine d).timed ∧ (∀ n ∈ (s.engine d).timer, n ≤ 255) ∧
    ((s.engine d).drainComplete = true → (s.engine d).state = .fault) ∧
    ((s.engine d).state = .fault → (s.engine d).cause.isSome = true)

/-- R7, R9: an undefined domain's engine is OFF. -/
def definedLaw (s : State) : Prop := ∀ d, s.record d = none → (s.engine d).state = .off

/-- R167: in SETUP every managed domain is OFF, or in FAULT with its drain complete. -/
def setupLaw (s : State) : Prop := s.partState = .setup → s.allDown = true

/-- R182: STOPPING lasts no longer than a managed domain is up. -/
def stoppingLaw (s : State) : Prop := s.partState = .stopping → s.allDown = false

/-- R73: "The inrush weights of the domains in RAIL_UP or SETTLE sum to at most 8, and that sum plus the free units is
exactly 8." -/
def budgetLaw (s : State) : Prop :=
  s.freeUnits + (allManaged.map s.heldWeight).sum = Config.budget

/-- R74: "A domain is in the ramp queue exactly when its engine state is WAIT_BUDGET, and it appears there at most
once." -/
def queueLaw (s : State) : Prop :=
  s.rampQueue.Nodup ∧ ∀ d, d ∈ s.rampQueue ↔ (s.engine d).state = .waitBudget

/-- The ramp arbiter's laws. -/
def rampLaw (s : State) : Prop := budgetLaw s ∧ queueLaw s

/-- The states that a domain in a faulted subtree can be in (R84, R90). -/
def EngineState.fallen : EngineState → Bool
  | .off => true
  | .draining => true
  | .fault => true
  | _ => false

/-- R91: "Neither a domain in FAULT nor any of its descendants has a live lease"; none of them is up (R84). -/
def faultLaw (s : State) : Prop :=
  ∀ d, s.faultAtOrAbove d = true → s.list d = [] ∧ (s.engine d).state.fallen = true

/-- The states in which the parent's floor is relied on: from the ramp queue to the last state with the rail on
(R49, R54). -/
def EngineState.relies (e : EngineState) : Bool := e == .waitBudget || e.outputs.railen

/-- R12, R49: a domain in the ramp queue or with its rail on has its floor met by its parent. -/
def floorLaw (s : State) : Prop :=
  ∀ d, (s.engine d).state.relies = true → ∀ r ∈ s.record d, r.floor.num ≤ (s.assured r.parent).num

/-- The lowest maximum level with which a domain enters an engine state (R3, R4: the lines and the times that the step
into it needs). -/
def EngineState.needs : EngineState → Level
  | .off => .off
  | .waitParent => .off
  | .waitBudget => .off
  | .railUp => .retain
  | .settle => .retain
  | .retain => .retain
  | .clockUp => .run
  | .run => .run
  | .boostUp => .boost
  | .boost => .boost
  | .boostDown => .boost
  | .draining => .off
  | .fault => .off

/-- R3, R15: a domain never goes above its maximum level. -/
def levelLaw (s : State) : Prop := ∀ d, ∀ r ∈ s.record d, (s.engine d).state.needs.num ≤ r.maxLevel.num

/-- R15: the target level of a defined domain is never above its maximum level. -/
def targetBound (s : State) : Prop := ∀ d, ∀ r ∈ s.record d, (s.target d).num ≤ r.maxLevel.num

/-- The engines' laws. -/
def engineLaw (s : State) : Prop :=
  definedLaw s ∧ timerLaw s ∧ levelLaw s ∧ setupLaw s ∧ stoppingLaw s ∧ rampLaw s ∧ faultLaw s ∧ floorLaw s

/-! ### The notice queues -/

/-- A notice's kind and identity (R125). -/
inductive NoticeKey where
  | granted (i : SlotId)
  | ended (i : SlotId)
  | wake (k : LineId)
  | fault (d : Managed)
  deriving DecidableEq, Repr

/-- R125: the kind and identity that merging goes by. -/
def Notice.key : Notice → NoticeKey
  | .granted h _ => .granted h.slot
  | .ended h _ => .ended h.slot
  | .wake k _ _ => .wake k
  | .fault d _ _ => .fault d

/-- R125: what a queued notice of agent a tells stands in the table: its handle names a lease of a's, an ENDED one's
lease is ended with its cause, and a GRANTED one carries the granted level (R127). A WAKE notice is the bound agent's
and stands in RUN alone (R123, R129). FAULT notices are A0's. -/
def noticeStands (s : State) (a : Agent) : Notice → Bool
  | .granted h level => (s.named h).any fun l => l.holder == a && l.granted == some level
  | .ended h cause => (s.named h).any fun l => l.holder == a && l.state == .ended cause
  | .wake k count _ => s.partState == .run && (s.wake k).agent == a && 1 ≤ count && count ≤ 255
  | .fault _ _ count => a == 0 && 1 ≤ count && count ≤ 255

/-- R125, R127, R131: no two notices of one kind and identity, and every notice stands. -/
def noticeLaw (s : State) : Prop :=
  ∀ a, ((s.queue a).map Notice.key).Nodup ∧ ∀ n ∈ s.queue a, noticeStands s a n = true

/-- R131: "never holds more than 55 of its 56 entries". -/
def queueBound (s : State) : Prop := ∀ a, (s.queue a).length ≤ 55

/-! ### Detectors and ports -/

/-- R114: a baseline is present exactly while the detector is active. -/
def detectorLaw (s : State) : Prop := ∀ k, (s.wake k).baseline.isSome = s.detectorActive k

/-- R194: a held reply's body has at most 250 bytes. -/
def replyLaw (s : State) : Prop := ∀ p, (s.port p).held.body.length ≤ 250

/-- R169: while a reset is held "every block holds its reset values and takes no event". The levels at the input pins, the
pin log and the queue of commands are not reset (log 2, log 3, log 8). -/
def heldResetLaw (s : State) : Prop :=
  s.resetHeld = true → s = { State.reset with
    resetHeld := true, pgood := s.pgood, ckok := s.ckok, lines := s.lines, pinLog := s.pinLog, pending := s.pending }

/-- R187: the last sequence is 1 to 255 or none. -/
def sequenceLaw (s : State) : Prop := ∀ p, (s.port p).lastSeq ≠ some 0

/-- Every law. -/
def Lawful (s : State) : Prop :=
  configurationLaw s ∧ startLaw s ∧ tableLaw s ∧ grantedLaw s ∧ wantedLaw s ∧ engineLaw s ∧ noticeLaw s ∧
    detectorLaw s ∧ replyLaw s ∧ sequenceLaw s ∧ heldResetLaw s

end Sys2Proof.Machine
end

