-- ==== Sys2Proof/Effects.lean ====
section
/-! DEFINITION. Closed forms of effects, written from the rules beside the operations of Machine/, in which the
statements say what a command leaves. Nothing in Machine/ uses them. -/

namespace Sys2Proof.Machine

/-! ### Ports -/

/-- R193, R196: a good frame under this sequence at this port is executed. -/
def State.executes (s : State) (p : Agent) (seq : Byte) : Bool := s.takesExchange p && !s.repeats p seq

/-- R193, R194: the reply is held at the port, and a sequence other than 0 becomes its last sequence. -/
def answer (p : Agent) (seq : Byte) (status : Status) (body : List Byte) (s : State) : State :=
  let port : Port :=
    { held := { echo := seq, status := status, body := body }
      lastSeq := if seq = 0 then s.ports[p].lastSeq else some seq
      awaitsDeselect := s.ports[p].awaitsDeselect }
  { s with ports := s.ports.set p port }

/-! ### The lease table -/

/-- R39, R42, R43: the slots of a set that are not FREE are freed in one event. -/
def withFreed (gone : SlotId → Bool) (s : State) : State :=
  { s with
    slots := Vector.ofFn fun i =>
      if gone i && (s.lease i).isSome then { generation := (s.slot i).generation + 1, lease := none } else s.slot i
    lists := Vector.ofFn fun d => (s.list d).filter fun i => !(gone i && s.liveOn d i)
    windows := Vector.ofFn fun w =>
      { s.window w with users := (s.window w).users - (allSlots.filter fun i => gone i && s.watches w i).length }
    wakes := Vector.ofFn fun k =>
      if (s.wake k).link.any fun h => gone h.slot && s.liveAt h.slot && s.handle h.slot == h then
        { s.wake k with link := none }
      else s.wake k
    queues := Vector.ofFn fun a =>
      (s.queue a).filter fun n => !(n.slot?.any fun i => gone i && (s.lease i).any fun l => l.holder == a) }

/-- R42, R134: what DETACH by an agent, or EVICT of it, leaves. -/
def withoutAgent (a : Agent) (s : State) : State :=
  (withFreed (fun i => (s.lease i).any fun l => l.holder == a) s).setQueue a []

/-- R36: the live leases of a set end, each with its cause, the ENDED notices posted in the order of `order`. -/
def withEnded (order : List SlotId) (cause : SlotId → EndCause) (s : State) : State :=
  { s with
    slots := Vector.ofFn fun i =>
      if order.contains i && s.liveAt i then
        { s.slot i with lease := (s.lease i).map fun l => { l with state := .ended (cause i) } }
      else s.slot i
    lists := Vector.ofFn fun d => (s.list d).filter fun i => !(order.contains i && s.liveOn d i)
    windows := Vector.ofFn fun w =>
      { s.window w with
        users := (s.window w).users - (allSlots.filter fun i => order.contains i && s.watches w i).length }
    wakes := Vector.ofFn fun k =>
      if (s.wake k).link.any fun h => order.contains h.slot && s.liveAt h.slot && s.handle h.slot == h then
        { s.wake k with link := none }
      else s.wake k
    queues := Vector.ofFn fun a =>
      s.queue a ++ (order.filter fun i => s.liveAt i && (s.lease i).any fun l => l.holder == a).map fun i =>
        .ended (s.handle i) (cause i) }

/-- R27, R28: a new lease stands in a slot, at the tail of its domain's list, counted in its window. -/
def withNewLease (i : SlotId) (l : Lease) (s : State) : State :=
  { s with
    slots := s.slots.set i { generation := (s.slot i).generation, lease := some l }
    lists := s.lists.set l.domain (s.list l.domain ++ [i])
    windows := Vector.ofFn fun w =>
      if l.term.window? = some w then { s.window w with users := (s.window w).users + 1 } else s.window w }

/-- The lease in a slot is replaced; nothing else changes. -/
def withLease (i : SlotId) (l : Lease) (s : State) : State :=
  { s with slots := s.slots.set i { generation := (s.slot i).generation, lease := some l } }

/-- R45: a lease whose countdown no longer carries the mark of a loading ahead of no due expiry (log 22). -/
def Lease.settled (l : Lease) : Lease :=
  match l.state with
  | .held (some c) => { l with state := .held (some { c with since := if c.since = .loaded then .untouched else c.since }) }
  | _ => l

/-- R45: every lease is settled; nothing else changes. -/
def withSettled (s : State) : State :=
  { s with slots := s.slots.map fun x => { x with lease := x.lease.map Lease.settled } }

/-- R30: a lease after a tick that does not end it: its countdown is lowered, but for one that was loaded with 1 ahead of
its expiry at this tick (R45), and stands as the tick leaves it. -/
def Lease.ticked (l : Lease) : Lease :=
  match l.state with
  | .held (some c) =>
    { l with state := .held (some { left := if c.left ≤ 1 then c.left else c.left - 1, since := .untouched }) }
  | _ => l

/-- R30: the cause with which the lease in a slot expires. -/
def State.expiryCauseAt (s : State) (i : SlotId) : EndCause :=
  match s.lease i with
  | some l => l.term.expiryCause
  | none => .expired

/-- R32: a lease of the list after the report, at the assured level. -/
def Lease.reported (assured : Level) (l : Lease) : Lease :=
  match l.state with
  | .pending =>
    if l.wanted.num ≤ assured.num then { l with granted := some l.wanted, state := .held (l.term.time.map Countdown.start) } else l
  | .held _ =>
    if grantedNum l.granted < l.wanted.num ∧ grantedNum l.granted < assured.num then
      { l with granted := some (l.wanted.lower assured) }
    else l
  | .ended _ => l

/-- R32: the GRANTED notices of a report for one agent, in list order: one for each lease granted or upgraded. -/
def State.grantNotices (s : State) (d : Managed) (a : Agent) : List Notice :=
  (s.list d).filterMap fun i =>
    match s.lease i with
    | some l =>
      if l.holder = a ∧ l.reported (s.assuredOf d) ≠ l then
        (l.reported (s.assuredOf d)).granted.map fun g => .granted (s.handle i) g
      else none
    | none => none

/-- R126: notices posted to a queue one after another. -/
def postAll (notices : List Notice) (q : List Notice) : List Notice :=
  notices.foldl (fun q n => postTo n q) q

/-- R103, R104: a HELD watched lease whose window the address matches has its idle period loaded. -/
def withReloads (a : Address) (s : State) : State :=
  { s with
    slots := Vector.ofFn fun i =>
      { s.slot i with
        lease := (s.lease i).map fun l =>
          match l.term with
          | .watched idle w => if s.matchesWindow a w then { l with state := l.state.load (some idle) } else l
          | _ => l } }

/-! ### Engines -/

/-- Where a domain that stands at a level comes to in the event that re-evaluates there: its engine state, its step
timer, and the levels it arrived at beyond the one it stood at, the first first (R51, R52, R53). -/
structure ChainEnd where
  state : EngineState
  timer : Option Nat
  arrived : List Level
  deriving DecidableEq, Repr

/-- A chain that arrived at a level before it went on. -/
def ChainEnd.after (level : Level) (c : ChainEnd) : ChainEnd := { c with arrived := level :: c.arrived }

/-- R53, R60, R62, R63: from RUN. -/
def chainFromRun (r : DomainRecord) (target : Level) : ChainEnd :=
  match target with
  | .boost => if r.boostSettle = some 0 then ⟨.boost, none, [.boost]⟩ else ⟨.boostUp, r.boostSettle, []⟩
  | .run => ⟨.run, none, []⟩
  | .retain => ⟨.retain, none, [.retain]⟩
  | .off => ⟨.draining, some r.drain, [.retain]⟩

/-- R53, R59, R63: from RETAIN, where a clock that is already seen takes the domain on to RUN. -/
def chainFromRetain (r : DomainRecord) (target : Level) (ckok : Bool) : ChainEnd :=
  match target with
  | .off => ⟨.draining, some r.drain, []⟩
  | .retain => ⟨.retain, none, []⟩
  | _ => if ckok then (chainFromRun r target).after .run else ⟨.clockUp, r.clockTimeout, []⟩

/-- R53, R61: from BOOST. -/
def chainFromBoost (r : DomainRecord) (target : Level) : ChainEnd :=
  match target with
  | .boost => ⟨.boost, none, []⟩
  | _ => if r.boostSettle = some 0 then (chainFromRun r target).after .run else ⟨.boostDown, r.boostSettle, []⟩

/-- From a level that has the rail on. -/
def chainFrom (r : DomainRecord) (target : Level) (ckok : Bool) : Level → ChainEnd
  | .off => ⟨.off, none, []⟩
  | .retain => chainFromRetain r target ckok
  | .run => chainFromRun r target
  | .boost => chainFromBoost r target

/-- The record and the levels of domain d fit together (R4, R15): the record is in range, and neither the target nor
the level concerned is above the maximum level. -/
def State.fits (s : State) (d : Managed) (r : DomainRecord) (level : Level) : Prop :=
  s.record d = some r ∧ r.inRange d ∧ level.num ≤ r.maxLevel.num ∧ (s.target d).num ≤ r.maxLevel.num

/-- The children that wait for d and whose floor a level meets, in ascending domain number (R52). -/
def State.waitingChildren (s : State) (d : Managed) (level : Level) : List Managed :=
  ((s.children (managedDomain d)).filter fun c => (s.engine c.1).state == .waitParent && c.2.num ≤ level.num).map Prod.fst

/-- R52: the children that arrivals of d at these levels release, in the order in which they join the ramp queue: each
arrival those that still wait and whose floor it meets, in ascending domain number. -/
def State.releases (s : State) (d : Managed) : List Level → List Managed
  | [] => []
  | level :: later =>
    s.waitingChildren d level ++ (s.releases d later).filter fun c => !(s.waitingChildren d level).contains c

/-- R113, R114: the wake record in t after an event that led there from s: the baseline stays, is sampled or is dropped
with the detector's activity, and nothing else of the record changes. -/
def refreshedWake (s t : State) (k : LineId) : WakeLine :=
  { s.wake k with
    baseline := if t.detectorActive k = true then some ((s.wake k).baseline.getD s.lines[k]) else none }

/-- R182: the part state after an event of the engines that led from s to t. -/
def partStateAfter (s t : State) : PartState :=
  if s.partState = .stopping ∧ t.allDown = true then .setup else s.partState

/-- What an event of engine d leaves as it was, and what follows from the engines: configuration, lease table, windows,
queues, ports, tap receiver and inputs stay; part state and baselines follow R182 and R113; the pins of d change in the
order of R50. -/
def engineFrame (d : Managed) (s t : State) : Prop :=
  t = { s with
    partState := partStateAfter s t, engines := t.engines, reports := t.reports, freeUnits := t.freeUnits,
    rampQueue := t.rampQueue, wakes := t.wakes, pinLog := s.pinLog ++ pinChanges [d] s t } ∧
  ∀ k, t.wake k = refreshedWake s t k

/-- R52: domain d, whose engine was e, has come to a place from which it does not move on in this event. -/
def engineAt (t : State) (d : Managed) (e : Engine) (c : ChainEnd) : Prop :=
  t.engine d = { e with state := c.state, timer := c.timer }

/-- R52: from s to t exactly these children went on from WAIT_PARENT to the tail of the ramp queue, in this order; beside
them only the engine of d may differ. -/
def released (s t : State) (d : Managed) (children : List Managed) : Prop :=
  t.rampQueue = s.rampQueue ++ children ∧
  ∀ e, e ≠ d → t.engine e =
    if e ∈ children then { s.engine e with state := .waitBudget, timer := none } else s.engine e

/-- R52, R53: from s to t domain d stood at a level with the rail on and has gone on as far as the event takes it. Its last
arrival is the report that waits; with no arrival, the report is as it was. -/
def goesOn (s t : State) (d : Managed) (r : DomainRecord) (level : Level) : Prop :=
  let c := chainFrom r (s.target d) (s.ckokSeen d) level
  engineAt t d (s.engine d) c ∧ released s t d (s.releases d c.arrived) ∧
  ∀ e, t.report e = if e = d then c.arrived.getLast?.or (s.report e) else s.report e

/-- R52, R53: domain d has arrived at a level with the rail on, from state s, and has gone on as far as the event takes
it: the engines, the reports and the ramp queue. -/
def arrivesAndGoesOn (s t : State) (d : Managed) (r : DomainRecord) (level : Level) : Prop :=
  let c := (chainFrom r (s.target d) (s.ckokSeen d) level).after level
  engineAt t d (s.engine d) c ∧ released s t d (s.releases d c.arrived) ∧
  ∀ e, t.report e = if e = d then c.arrived.getLast? else s.report e

/-- R52, R53: the whole event in which domain d arrives at a level with the rail on. -/
def arrivesAt (s t : State) (d : Managed) (r : DomainRecord) (level : Level) : Prop :=
  arrivesAndGoesOn s t d r level ∧ t.partState = s.partState ∧ engineFrame d s t

/-- R54: the engine state that a domain rises to from OFF. One without a place in the tree waits for its parent. -/
def risesTo (s : State) (d : Managed) : EngineState :=
  match s.place d with
  | some (parent, floor) => if floor.num ≤ (s.assured parent).num then .waitBudget else .waitParent
  | none => .waitParent

/-- R52, R54: domain d has arrived at OFF from state s; with a target above OFF it begins a rise at once. -/
def arrivesAtOff (s t : State) (d : Managed) : Prop :=
  (s.target d = .off → t.engine d = { s.engine d with state := .off, timer := none } ∧ t.rampQueue = s.rampQueue) ∧
  (s.target d ≠ .off → s.record d ≠ none →
    t.engine d = { s.engine d with state := risesTo s d, timer := none } ∧
    t.rampQueue = if risesTo s d = .waitBudget then s.rampQueue ++ [d] else s.rampQueue) ∧
  (∀ e, e ≠ d → t.engine e = s.engine e) ∧
  (∀ e, t.report e = if e = d then some .off else s.report e) ∧
  t.freeUnits = s.freeUnits ∧ engineFrame d s t

/-! ### Faults -/

/-- R84: a descendant's engine after the cut. -/
def Engine.cut (e : Engine) (drain : Option Nat) : Engine :=
  match e.state with
  | .off => e
  | .waitParent => { e with state := .off, timer := none }
  | .waitBudget => { e with state := .off, timer := none }
  | .draining => e
  | .fault => e
  | _ => { e with state := .draining, timer := drain }

/-- R38: the leases that a fault of d ends, in their order: d's list, then each descendant's in ascending order. -/
def State.faultOrder (s : State) (d : Managed) : List SlotId :=
  s.list d ++ (s.descendants d).flatMap s.list

/-- R38: the cause with which a lease ends in a fault event of d. -/
def State.faultEndCause (s : State) (d : Managed) (i : SlotId) : EndCause :=
  if s.liveOn d i then .fault else .parentFault

/-- R83 to R87: what the fault event of d leaves of the state s in which it was detected. A waiting domain that is cut
hands its OFF report (log 7), and the pins close in descending domain number (R85). -/
def faultOutcome (s t : State) (d : Managed) (r : DomainRecord) (cause : FaultCause) : Prop :=
  let u := withEnded (s.faultOrder d) (s.faultEndCause d) s
  t.engine d = { state := .fault, timer := some r.drain, cause := some cause, drainComplete := false } ∧
  (∀ e, e ≠ d → t.engine e =
    if s.below d e = true then (s.engine e).cut ((s.record e).map DomainRecord.drain) else s.engine e) ∧
  (∀ e, t.report e =
    if s.below d e = true ∧ (s.engine e).state ∈ [EngineState.waitParent, .waitBudget] then some .off else s.report e) ∧
  t = { s with
    engines := t.engines
    reports := t.reports
    slots := u.slots
    lists := u.lists
    freeUnits := s.freeUnits + ((d :: s.descendants d).map s.heldWeight).sum
    rampQueue := s.rampQueue.filter fun e => !(s.below d e && (s.engine e).state == .waitBudget)
    windows := u.windows
    wakes := Vector.ofFn (refreshedWake u t)
    queues := u.queues.set 0 (postTo (.fault d cause 1) (u.queue 0))
    pinLog := s.pinLog ++ pinChanges descendingManaged s t }

/-! ### Request bodies, as an agent builds them (R198, R199) -/

/-- A number in `len` bytes, most significant first (R198). -/
def bigEndian : Nat → Nat → List Byte
  | 0, _ => []
  | len + 1, n => bigEndian len (n / 256) ++ [byteOf n]

/-- R199, the bodies of ACQUIRE for a domain, level, term and tag. The bytes that the kind does not read are free. -/
def acquireBody (d : Domain) (level : Level) (term : Term) (tag : Tag) (body : List Byte) : Prop :=
  match term with
  | .timed n => ∃ w, body = [byteOf d.val, level.code, 1, w] ++ bigEndian 2 n ++ bigEndian 2 tag.toNat
  | .watched n w => body = [byteOf d.val, level.code, 2, byteOf w.val] ++ bigEndian 2 n ++ bigEndian 2 tag.toNat
  | .standing => ∃ w t1 t0, body = [byteOf d.val, level.code, 3, w, t1, t0] ++ bigEndian 2 tag.toNat

/-- R172, R199, the bodies of DEFINE_DOMAIN that ask for a record. The bytes that the maximum level does not call for
are free. -/
def recordBody (d : Managed) (r : DomainRecord) (body : List Byte) : Prop :=
  ∃ clock boost, body = [managedCode d, byteOf r.parent.val, r.floor.code, r.maxLevel.code, byteOf r.weight,
    byteOf r.pgoodTimeout, byteOf r.settle, (r.clockTimeout.map byteOf).getD clock,
    (r.boostSettle.map byteOf).getD boost, byteOf r.drain]

/-- R174, R199, the bodies of DEFINE_WAKE. Without a template the template bytes are free. -/
def wakeBody (k : LineId) (enabled : Bool) (edge : Edge) (agent : Agent) (home : Domain) (template : Option Template)
    (body : List Byte) : Prop :=
  match template with
  | some t => body = [byteOf k.val, yesNoCode enabled, edge.code, byteOf agent.val, byteOf home.val, 1,
      managedCode t.domain, t.level.code] ++ bigEndian 2 t.duration
  | none => ∃ x y z u, body = [byteOf k.val, yesNoCode enabled, edge.code, byteOf agent.val, byteOf home.val, 0, x, y, z, u]

/-- R98, R201: the bits of a tap word: address bit 31 first, then the parity bit. -/
def wordBits (a : Address) (parity : Bool) : List Bool :=
  (List.ofFn fun i : Fin 32 => a.getMsbD i.val) ++ [parity]

/-! ### What START checks (R179) -/

/-- R179, order 2: the parent is D0, or it is defined and the floor is at or below its maximum level. -/
def domainChecked (s : State) (d : Managed) : Prop :=
  ∀ r ∈ s.record d, r.parent = 0 ∨ ∃ m ∈ asManaged r.parent, ∃ rp ∈ s.record m, r.floor.num ≤ rp.maxLevel.num

/-- R122, R179, order 3: the home is D0 or defined; a template's domain is defined, its maximum level at or above the
template level. -/
def lineChecked (s : State) (k : LineId) : Prop :=
  ((s.wake k).home = 0 ∨ ∃ m ∈ asManaged (s.wake k).home, (s.record m).isSome = true) ∧
  ∀ t ∈ (s.wake k).template, ∃ r ∈ s.record t.domain, t.level.num ≤ r.maxLevel.num

/-! ### Grants (R76) -/

/-- R76: how many entries of a queue a grant event takes when none of them returns its weight in that event. -/
def fitting (s : State) : Nat → List Managed → Nat
  | _, [] => 0
  | free, d :: rest => if s.weight d ≤ free then fitting s (free - s.weight d) rest + 1 else 0

/-- R57, R76: a granted domain's engine: in RAIL_UP, or past it in SETTLE when PGOOD is already seen. -/
def State.granted (s : State) (d : Managed) (r : DomainRecord) : Engine :=
  if s.pgoodSeen d then { s.engine d with state := .settle, timer := some r.settle }
  else { s.engine d with state := .railUp, timer := some r.pgoodTimeout }

/-- R57, R58, R76: from s to t the arbiter has granted d, the head of the ramp queue: its weight is taken and its rise
begun, or, with PGOOD already seen and a settle of 0, its weight returned and its arrival at RETAIN made at once. -/
def grantOutcome (s t : State) (d : Managed) (r : DomainRecord) : Prop :=
  (if s.pgoodSeen d = true ∧ r.settle = 0 then
    arrivesAndGoesOn { s with rampQueue := s.rampQueue.tail } t d r .retain ∧ t.freeUnits = s.freeUnits
  else
    t.rampQueue = s.rampQueue.tail ∧ t.freeUnits = s.freeUnits - r.weight ∧ t.reports = s.reports ∧
    ∀ e, t.engine e = if e = d then s.granted d r else s.engine e) ∧
  t = { s with
    engines := t.engines, reports := t.reports, freeUnits := t.freeUnits, rampQueue := t.rampQueue,
    pinLog := s.pinLog ++ pinChanges [d] s t }

/-- R76: these domains are granted one after another, each at the head of the queue when its turn comes and fitting the
free units as they then stand. -/
def grantsTaken (s : State) : List Managed → State → Prop
  | [], t => t = s
  | d :: later, t => ∃ r u, s.record d = some r ∧ s.rampQueue.head? = some d ∧ r.weight ≤ s.freeUnits ∧
      grantOutcome s u d r ∧ grantsTaken u later t

/-! ### Outputs -/

/-- R2, R3, R49, the table: the outputs of a domain in an engine state, with the lines its maximum level uses. -/
def tableOutputs (e : EngineState) (maxLevel : Level) : Outputs where
  railen := [EngineState.railUp, .settle, .retain, .clockUp, .run, .boostUp, .boost, .boostDown].contains e
  drst := !([EngineState.retain, .clockUp, .run, .boostUp, .boost, .boostDown].contains e)
  iso := !([EngineState.run, .boostUp, .boost, .boostDown].contains e)
  ckrq := [Level.run, .boost].contains maxLevel && [EngineState.clockUp, .run, .boostUp, .boost, .boostDown].contains e
  vsel := maxLevel == .boost && [EngineState.boostUp, .boost].contains e

/-- The value of one output line. -/
def Outputs.line (o : Outputs) : OutputLine → Bool
  | .railen => o.railen
  | .drst => o.drst
  | .iso => o.iso
  | .ckrq => o.ckrq
  | .vsel => o.vsel

/-- R50: the changes that close a domain and then those that open it, in their order. -/
def changeOrder : List (OutputLine × Bool) :=
  [(.vsel, false), (.iso, true), (.ckrq, false), (.drst, true), (.railen, false),
   (.railen, true), (.drst, false), (.ckrq, true), (.iso, false), (.vsel, true)]

/-- R49: "ISO of a managed domain is released only while its RAILEN and CKRQ are asserted and its DRST is released." -/
def Outputs.safe (o : Outputs) : Bool := o.iso || (o.railen && o.ckrq && !o.drst)

/-- One change reaches a domain's outputs. -/
def Outputs.change (o : Outputs) (c : PinChange) : Outputs :=
  match c.line with
  | .railen => { o with railen := c.asserted }
  | .drst => { o with drst := c.asserted }
  | .iso => { o with iso := c.asserted }
  | .ckrq => { o with ckrq := c.asserted }
  | .vsel => { o with vsel := c.asserted }

end Sys2Proof.Machine
end

