-- ==== Sys2Proof/Certificates/Slice0/Obligations.lean ====
section
/-! DEFINITION. The statements for the provers. -/

open Sys2Proof Sys2Proof.Machine

/-- A step runs the front command on the queue's rest; an empty queue idles (the queue is the model's choice, log 3)
(00 §6.7, log 3). -/
def Obligations.StepTakesTheFrontCommand : Prop :=
  (∀ (c : Instr) (rest : List Instr) (s : State),
    step { s with pending := c :: rest } = exec c { s with pending := rest }) ∧
  (∀ s : State, s.pending = [] → step s = .next s)

/-- The part never stops: every command in every state answers a next state, with the queue as it was (05 R82, 09
R140). The queue of waiting commands is the model's own (log 3). -/
def Obligations.EveryCommandAnswersANextState : Prop :=
  ∀ (c : Instr) (s : State), ∃ t, exec c s = .next t ∧ t.pending = s.pending

/-- The state right after a part reset (10 R169, 01 R8, 03 R48, 02 R43, 04 R72, 06 R101, 07 R111, 08 R124, 11 R187).
That the tap receiver waits right at the release is the model's reading (log 1). -/
def Obligations.ResetStateIsSetupWithNothingHeld : Prop :=
  State.reset.partState = .setup ∧
  (∀ d, State.reset.record d = none ∧
    State.reset.engine d = { state := .off, timer := none, cause := none, drainComplete := false } ∧
    State.reset.report d = none ∧ State.reset.list d = [] ∧ State.reset.outputs d = Outputs.off) ∧
  (∀ i, State.reset.slot i = { generation := 0, lease := none }) ∧
  State.reset.freeUnits = 8 ∧ State.reset.rampQueue = [] ∧
  (∀ w, State.reset.window w = { range := none, users := 0 }) ∧
  (∀ k, State.reset.wake k =
    { enabled := false, edge := .rise, agent := 0, home := 0, template := none, link := none, baseline := none }) ∧
  (∀ a, State.reset.queue a = [] ∧ State.reset.attention a = false) ∧
  (∀ p, (State.reset.port p).held = { echo := 0, status := .noReply, body := [] } ∧
    (State.reset.port p).lastSeq = none) ∧
  State.reset.tapAwaits = true

/-- An exchange is good exactly if it begins with a whole request frame, and it is read back whole (11 R189, 11 R190,
11 R191). -/
def Obligations.GoodIsExactlyAWholeFrame : Prop :=
  ∀ (bytes : List Byte) (seq code : Byte) (body : List Byte), classifyExchange bytes = .good seq code body ↔
    body.length ≤ 60 ∧ ∃ after, bytes = requestFrame seq code body ++ after

/-- The four bad frames, and the BAD_FRAME reply, which replaces the held reply and nothing else (11 R190, 11 R192).
That an exchange's bits come whole with its end event is the model's choice (log 9). -/
def Obligations.BadFramesAreAnsweredBadFrame : Prop :=
  (∀ (first : Byte) (rest : List Byte), first ≠ 0xA5 → first ≠ 0x00 → first ≠ 0xFF →
    classifyExchange (first :: rest) = .bad (rest.headD 0)) ∧
  (∀ rest : List Byte, rest.length < 3 → classifyExchange (0xA5 :: rest) = .bad (rest.headD 0)) ∧
  (∀ (seq code len : Byte) (rest : List Byte), 60 < len.toNat →
    classifyExchange (0xA5 :: seq :: code :: len :: rest) = .bad seq) ∧
  (∀ (seq code len : Byte) (rest : List Byte), rest.length < len.toNat + 1 →
    classifyExchange (0xA5 :: seq :: code :: len :: rest) = .bad seq) ∧
  (∀ (seq code check : Byte) (body after : List Byte), body.length ≤ 60 →
    check ≠ crc8 (seq :: code :: BitVec.ofNat 8 body.length :: body) →
    classifyExchange (0xA5 :: seq :: code :: BitVec.ofNat 8 body.length :: (body ++ check :: after)) = .bad seq) ∧
  (∀ (s : State) (p : Agent) (bits : List Bool) (echo : Byte), s.takesExchange p = true →
    classifyExchange (wholeBytes bits) = .bad echo →
    echo = (wholeBytes bits).getD 1 0 ∧
    exec (.badFrame p bits) s =
      .next (s.setPort p { s.port p with held := { echo := echo, status := .badFrame, body := [] } }))

/-- The first whole byte decides what an exchange is, and an idle exchange changes nothing (R189). -/
def Obligations.IdleExchangeChangesNothing : Prop :=
  (∀ (s : State) (p : Agent) (bits : List Bool),
    wholeBytes bits = [] ∨ (wholeBytes bits).head? = some 0x00 ∨ (wholeBytes bits).head? = some 0xFF →
    classifyExchange (wholeBytes bits) = .idle ∧ exec (.idleExchange p bits) s = .next s) ∧
  (∀ rest : List Byte, classifyExchange (0xA5 :: rest) = classifyFrame rest ∧ classifyExchange (0xA5 :: rest) ≠ .idle) ∧
  (∀ (first : Byte) (rest : List Byte), first ≠ 0xA5 → first ≠ 0x00 → first ≠ 0xFF →
    classifyExchange (first :: rest) = .bad (rest.headD 0))

/-- A frame under the port's last sequence is not executed; any other is, and its sequence is kept unless it is 0
(R193). -/
def Obligations.SequenceDecidesWhatIsExecuted : Prop :=
  ∀ (s : State) (p : Agent) (seq code : Byte) (body : List Byte) (c : Instr), s.takesExchange p = true →
    body.length ≤ 60 →
    (c = .retransmission p seq code body ∨ c = .unknownRequest p seq code body ∨
      ∃ r : Request, c = r.command p seq body) →
    (seq ≠ 0 ∧ (s.port p).lastSeq = some seq → exec c s = .next s) ∧
    ((seq = 0 ∨ (s.port p).lastSeq ≠ some seq) ∧ c ≠ .retransmission p seq code body →
      ∃ t, exec c s = .next t ∧ (t.port p).held.echo = seq ∧ (t.port p).held.status ≠ .noReply ∧
        (t.port p).held.status ≠ .badFrame ∧
        (t.port p).lastSeq = if seq = 0 then (s.port p).lastSeq else some seq)

/-- A port that has not seen its chip select deasserted since the reset takes no exchange (11 R196, 10 R169). That such
an exchange leaves everything as it is, and that none is taken under a held reset, is the model's reading (log 11,
log 12). -/
def Obligations.WaitingPortTakesNoExchange : Prop :=
  ∀ (s : State) (p : Agent) (seq code : Byte) (body : List Byte) (bits : List Bool), s.takesExchange p = false →
    (∀ r : Request, exec (r.command p seq body) s = .next s) ∧
    exec (.unknownRequest p seq code body) s = .next s ∧ exec (.retransmission p seq code body) s = .next s ∧
    exec (.badFrame p bits) s = .next s ∧ exec (.idleExchange p bits) s = .next s

/-- The row of the table that an exchange's clocked bits are does what the end of that exchange does (11 R188, 11 R189,
11 R190, 11 R193, 11 R194). That a row is named from the bits and the port's last sequence is the model's reading
(log 10). -/
def Obligations.ExchangeBitsHaveTheirRowsMeaning : Prop :=
  ∀ (s : State) (p : Agent) (bits : List Bool),
    exec (exchangeCommand s p bits) s = .next (exchangeEnd p bits s)

/-- Bits make bytes, first bit highest; a port shifts out its held reply, then 0xFF; SDO is high impedance unselected
or in a reset (11 R188, 11 R194, 11 R197, 11 R196, 11 R202). That a port which takes no exchange shifts out nothing
is the model's choice (log 23), and so is the form of the views (log 9). -/
def Obligations.BytesAndRepliesAreShiftedAsTheRuleSays : Prop :=
  (∀ b : Byte, (byteBits b).length = 8 ∧ ∀ i < 8, (byteBits b)[i]? = some (b.getMsbD i)) ∧
  (∀ (bytes : List Byte) (tail : List Bool), tail.length < 8 → wholeBytes (bytes.flatMap byteBits ++ tail) = bytes) ∧
  (∀ h : HeldReply, replyFrame h = [0x5A, h.echo, h.status.code, BitVec.ofNat 8 h.body.length] ++ h.body ++
    [crc8 ([h.echo, h.status.code, BitVec.ofNat 8 h.body.length] ++ h.body)]) ∧
  (∀ (s : State) (p : Agent) (n : Nat), s.takesExchange p = true →
    ((s.shiftOut p n).length = n ∧
      ∀ i < n, (s.shiftOut p n)[i]? = some ((replyFrame (s.port p).held).getD i 0xFF)) ∧
    ((s.shiftOutBits p n).length = n ∧
      ∀ i < n, (s.shiftOutBits p n)[i]? = some (((replyFrame (s.port p).held).getD (i / 8) 0xFF).getMsbD (i % 8))) ∧
    ∀ free, s.sdoPin p true n free =
      if ((replyFrame (s.port p).held).getD (n / 8) 0xFF).getMsbD (n % 8) = true then .high else .low) ∧
  (∀ (s : State) (p : Agent) (n : Nat) (free : PinLevel),
    (s.takesExchange p = false → s.shiftOut p n = [] ∧ s.shiftOutBits p n = []) ∧
    s.sdoPin p false n free = .highImpedance ∧
    (s.resetHeld = true → ∀ selected, s.sdoPin p selected n free = .highImpedance)) ∧
  [Status.ok, .noReply, .badFrame, .unknownRequest, .badLength, .badValue, .notRunning, .notInSetup, .notSupervisor,
    .noDomain, .badLevel, .domainFault, .quota, .tableFull, .staleHandle, .notHolder, .wrongKind, .noWindow, .windowInUse,
    .stillDraining, .stillPowered, .badConfig, .leaseEnded, .notFaulted].map Status.code = (List.range 24).map byteOf

/-- A code that names no request, a supervisor request from another agent, then the part state (09 R139, 09 R141, 09
R142, 10 R170, 11 R197). -/
def Obligations.DecoderChecksInOrder : Prop :=
  ∀ (s : State) (p : Agent) (seq : Byte) (body : List Byte), s.executes p seq = true → body.length ≤ 60 →
    (∀ code : Byte, (∀ r : Request, r.code ≠ code) →
      exec (.unknownRequest p seq code body) s = .next (answer p seq .unknownRequest [] s)) ∧
    (p ≠ 0 → ∀ r ∈ [Request.defineDomain, .defineWake, .setWindow, .clearWindow, .setWakeEnable, .queryWake, .start,
        .restart, .revoke, .evict, .clearFault],
      exec (r.command p seq body) s = .next (answer p seq .notSupervisor [] s)) ∧
    (s.partState ≠ .setup → p = 0 → ∀ r ∈ [Request.defineDomain, .defineWake, .start],
      exec (r.command p seq body) s = .next (answer p seq .notInSetup [] s)) ∧
    (s.partState ≠ .run → ∀ r ∈ [Request.acquire, .renew, .modify, .release],
      exec (r.command p seq body) s = .next (answer p seq .notRunning [] s)) ∧
    (s.partState ≠ .run → p = 0 → ∀ r ∈ [Request.setWakeEnable, .restart, .revoke, .evict],
      exec (r.command p seq body) s = .next (answer p seq .notRunning [] s)) ∧
    (s.partState = .stopping → exec (.detach p seq body) s = .next (answer p seq .notRunning [] s)) ∧
    (s.partState = .stopping → p = 0 → ∀ r ∈ [Request.setWindow, .clearWindow, .clearFault],
      exec (r.command p seq body) s = .next (answer p seq .notRunning [] s))

/-- Each agent request has one body length; another is BAD_LENGTH, and a frame shorter than it declares is bad (R143). -/
def Obligations.BodyLengthsAreFixed : Prop :=
  (∀ (s : State) (p : Agent) (seq : Byte) (body : List Byte), s.executes p seq = true → body.length ≤ 60 →
    ∀ q ∈ [(Request.status, 0), (Request.queryDomain, 1), (Request.queryLease, 2), (Request.listLeases, 1),
      (Request.acquire, 8), (Request.renew, 4), (Request.modify, 3), (Request.release, 2), (Request.takeNotice, 0),
      (Request.detach, 0)],
    q.1.admission s.partState = none → body.length ≠ q.2 →
      exec (q.1.command p seq body) s = .next (answer p seq .badLength [] s)) ∧
  (∀ (s : State) (seq : Byte) (body : List Byte), s.executes 0 seq = true → body.length ≤ 60 →
    ∀ q ∈ [(Request.defineDomain, 10), (Request.defineWake, 10), (Request.setWindow, 10), (Request.clearWindow, 1),
      (Request.setWakeEnable, 2), (Request.queryWake, 1), (Request.start, 0), (Request.restart, 0),
      (Request.revoke, 2), (Request.evict, 1), (Request.clearFault, 1)],
    q.1.admission s.partState = none → body.length ≠ q.2 →
      exec (q.1.command 0 seq body) s = .next (answer 0 seq .badLength [] s)) ∧
  (∀ (seq code len : Byte) (rest : List Byte), rest.length < len.toNat + 1 →
    classifyExchange (0xA5 :: seq :: code :: len :: rest) = .bad seq)

/-- A refused request changes nothing but the port's held reply and last sequence (09 R140). -/
def Obligations.RefusalChangesOnlyThePort : Prop :=
  ∀ (s t : State) (r : Request) (p : Agent) (seq : Byte) (body : List Byte), s.executes p seq = true →
    body.length ≤ 60 → exec (r.command p seq body) s = .next t → (t.port p).held.status ≠ .ok →
    t = answer p seq (t.port p).held.status (t.port p).held.body s ∧
    (t.port p).held.body.length =
      match (t.port p).held.status with
      | .leaseEnded => 1
      | .windowInUse => 1
      | .badConfig => 2
      | _ => 0

/-- A field out of its range is refused BAD_VALUE (09 R144, 09 R152, 10 R172, 10 R174, 10 R175, 10 R176, 10 R177, 10
R186). -/
def Obligations.RangeFaultsAreBadValue : Prop :=
  ∀ (s : State) (p : Agent) (seq : Byte) (b0 b1 b2 b3 b4 b5 b6 b7 b8 b9 : Byte), s.executes p seq = true →
    let body := [b0, b1, b2, b3, b4, b5, b6, b7, b8, b9]
    (15 < b0.toNat → exec (.listLeases p seq [b0]) s = .next (answer p seq .badValue [] s)) ∧
    (p = 0 → s.partState = .setup →
      b0 = 0 ∨ 15 < b0.toNat ∨ 3 < b3.toNat ∨
        (b3 ≠ 0 ∧ (b0.toNat ≤ b1.toNat ∨ b2 = 0 ∨ 3 < b2.toNat ∨ b4 = 0 ∨ 8 < b4.toNat ∨ b5 = 0 ∨ b9 = 0 ∨
          (1 < b3.toNat ∧ b7 = 0))) →
      exec (.defineDomain p seq body) s = .next (answer p seq .badValue [] s)) ∧
    (p = 0 → s.partState = .setup →
      7 < b0.toNat ∨ 1 < b1.toNat ∨ 2 < b2.toNat ∨ 3 < b3.toNat ∨ 15 < b4.toNat ∨ 1 < b5.toNat ∨
        (b5 = 1 ∧ (b6 = 0 ∨ 15 < b6.toNat ∨ b7 = 0 ∨ 3 < b7.toNat ∨ (b8 = 0 ∧ b9 = 0))) →
      exec (.defineWake p seq body) s = .next (answer p seq .badValue [] s)) ∧
    (p = 0 → s.partState ≠ .stopping → 15 < b0.toNat →
      exec (.setWindow p seq body) s = .next (answer p seq .badValue [] s) ∧
      exec (.clearWindow p seq [b0]) s = .next (answer p seq .badValue [] s) ∧
      exec (.clearFault p seq [b0]) s = .next (answer p seq .badValue [] s)) ∧
    (p = 0 → s.partState = .run → 7 < b0.toNat ∨ 1 < b1.toNat →
      exec (.setWakeEnable p seq [b0, b1]) s = .next (answer p seq .badValue [] s))

/-- STATUS reports the part state and four counts, from any agent in every part state (R147). -/
def Obligations.StatusReportsTheCounts : Prop :=
  ∀ (s : State) (p : Agent) (seq : Byte) (body : List Byte), s.executes p seq = true → body.length ≤ 60 →
    exec (.status p seq body) s = .next
      (if body = [] then
        answer p seq .ok [s.partState.code, byteOf (allSlots.filter fun i => (s.lease i).any fun l => l.holder == p).length,
          byteOf (s.queue p).length, byteOf (allSlots.filter fun i => (s.lease i).isNone).length, byteOf s.freeUnits] s
      else answer p seq .badLength [] s)

/-- QUERY_DOMAIN reports the seven values of a managed domain (09 R148, 01 R17, 11 R200). -/
def Obligations.QueryDomainReportsTheEngine : Prop :=
  ∀ (s : State) (p : Agent) (seq : Byte), s.executes p seq = true →
    (∀ d : Managed, exec (.queryDomain p seq [managedCode d]) s = .next (answer p seq .ok
      [yesNoCode (s.record d).isSome, (s.engine d).state.code, (s.engine d).state.assured.code, (s.target d).code,
        byteOf (s.list d).length, faultCauseCode (s.engine d).cause, yesNoCode (s.engine d).drainComplete] s)) ∧
    (∀ b : Byte, 15 < b.toNat → exec (.queryDomain p seq [b]) s = .next (answer p seq .badValue [] s))

/-- QUERY_DOMAIN reports D0 by fixed values in every part state (R149). -/
def Obligations.RootDomainIsReportedAtBoost : Prop :=
  ∀ (s : State) (p : Agent) (seq : Byte), s.executes p seq = true →
    exec (.queryDomain p seq [0]) s = .next (answer p seq .ok [1, 9, 3, 3, 0, 0, 0] s)

/-- QUERY_LEASE reports the lease its handle names, and LIST_LEASES a domain's list in its order (09 R150, 09 R151, 09
R152, 11 R200). -/
def Obligations.LeaseQueriesReportTheTable : Prop :=
  ∀ (s : State) (p : Agent) (seq : Byte), s.executes p seq = true →
    (∀ (h : Handle) (l : Lease), s.named h = some l →
      exec (.queryLease p seq [byteOf h.slot.val, h.generation]) s = .next (answer p seq .ok
        ([byteOf h.slot.val, h.generation, l.state.code, byteOf l.holder.val, managedCode l.domain, l.term.code,
          l.wanted.code, grantedCode l.granted] ++ bigEndian 2 (l.term.time.getD 0) ++
          [match l.term with | .watched _ w => byteOf w.val | _ => 0xFF] ++
          bigEndian 2 (match l.state with | .held (some c) => c.left | _ => 0) ++ bigEndian 2 l.tag.toNat ++
          [l.origin.code, match l.state with | .ended cause => cause.code | _ => 0]) s)) ∧
    (∀ h : Handle, s.named h = none →
      exec (.queryLease p seq [byteOf h.slot.val, h.generation]) s = .next (answer p seq .staleHandle [] s)) ∧
    (∀ x g : Byte, 47 < x.toNat → exec (.queryLease p seq [x, g]) s = .next (answer p seq .badValue [] s)) ∧
    (∀ (d : Managed) (leases : List (SlotId × Lease)), s.list d = leases.map Prod.fst →
      (∀ x ∈ leases, s.lease x.1 = some x.2 ∧ x.2.live = true) →
      exec (.listLeases p seq [managedCode d]) s = .next (answer p seq .ok
        (byteOf leases.length :: leases.flatMap fun x =>
          [byteOf x.1.val, (s.slot x.1).generation,
            byteOf (8 * x.2.term.code.toNat + (if x.2.state = .pending then 0 else 4) + x.2.holder.val),
            byteOf (4 * grantedNum x.2.granted + x.2.wanted.num)]) s)) ∧
    exec (.listLeases p seq [0]) s = .next (answer p seq .ok [0] s)

/-- ACQUIRE makes a lease in the lowest FREE slot, HELD or PENDING by the assured level (09 R155, 02 R27, 02 R24, 11
R199). The mark that a loading leaves is the model's own (log 22). -/
def Obligations.AcquireMakesTheLease : Prop :=
  ∀ (s : State) (p : Agent) (seq : Byte) (body : List Byte) (d : Managed) (r : DomainRecord) (level : Level)
    (term : Term) (tag : Tag) (i : SlotId), s.executes p seq = true → s.partState = .run →
    s.record d = some r → acquireBody (managedDomain d) level term tag body → level ≠ .off → level.num ≤ r.maxLevel.num →
    term.inRange → (∀ w ∈ term.window?, (s.window w).range.isSome = true) → s.faultAtOrAbove d = false →
    (s.slotsOf p).length < 16 → s.lease i = none → (∀ j < i, s.lease j ≠ none) →
    exec (.acquire p seq body) s = .next (answer p seq .ok
      [byteOf i.val, (s.slot i).generation, if level.num ≤ (s.assuredOf d).num then 2 else 1, (s.assuredOf d).code]
      (withNewLease i
        { holder := p, domain := d, term := term, wanted := level,
          granted := if level.num ≤ (s.assuredOf d).num then some level else none,
          state := if level.num ≤ (s.assuredOf d).num then .held (term.time.map Countdown.start) else .pending,
          tag := tag, origin := .request } s))

/-- ACQUIRE's refusals: range faults first, then domain, level and window, then fault, quota and table (09 R154, 09
R144, 05 R91, 02 R24). -/
def Obligations.AcquireRefusesInItsOrder : Prop :=
  (∀ (s : State) (p : Agent) (seq dom level kind w t1 t0 g1 g0 : Byte), s.executes p seq = true →
    s.partState = .run →
    (15 < dom.toNat ∨ 3 < level.toNat ∨ kind.toNat = 0 ∨ 3 < kind.toNat ∨ (kind = 2 ∧ 15 < w.toNat) ∨
      ((kind = 1 ∨ kind = 2) ∧ t1 = 0 ∧ t0 = 0)) →
    exec (.acquire p seq [dom, level, kind, w, t1, t0, g1, g0]) s = .next (answer p seq .badValue [] s)) ∧
  (∀ (s : State) (p : Agent) (seq : Byte) (body : List Byte) (dom : Domain) (level : Level) (term : Term) (tag : Tag),
    s.executes p seq = true → s.partState = .run → acquireBody dom level term tag body → term.inRange →
    (∀ m, asManaged dom = some m → s.record m = none) →
    exec (.acquire p seq body) s = .next (answer p seq .noDomain [] s)) ∧
  (∀ (s : State) (p : Agent) (seq : Byte) (body : List Byte) (d : Managed) (r : DomainRecord) (level : Level)
    (term : Term) (tag : Tag), s.executes p seq = true → s.partState = .run →
    acquireBody (managedDomain d) level term tag body → term.inRange → s.record d = some r →
    if level = .off ∨ r.maxLevel.num < level.num then
      exec (.acquire p seq body) s = .next (answer p seq .badLevel [] s)
    else if ∃ w ∈ term.window?, (s.window w).range = none then
      exec (.acquire p seq body) s = .next (answer p seq .noWindow [] s)
    else if s.faultAtOrAbove d = true then exec (.acquire p seq body) s = .next (answer p seq .domainFault [] s)
    else if 16 ≤ (s.slotsOf p).length then exec (.acquire p seq body) s = .next (answer p seq .quota [] s)
    else (∀ i, s.lease i ≠ none) → exec (.acquire p seq body) s = .next (answer p seq .tableFull [] s))

/-- The refusals of RENEW, MODIFY, RELEASE and REVOKE: values, levels, stale handles, holders, ended leases (02 R22, 09
R145, 09 R156, 09 R158, 09 R160, 10 R184). -/
def Obligations.HandleChecksOfLeaseRequests : Prop :=
  ∀ (s : State) (p : Agent) (seq : Byte) (h : Handle) (level : Level) (t1 t0 : Byte), s.executes p seq = true →
    s.partState = .run →
    (s.named h = none →
      exec (.renew p seq [byteOf h.slot.val, h.generation, t1, t0]) s = .next (answer p seq .staleHandle [] s) ∧
      (level ≠ .off → exec (.modify p seq [byteOf h.slot.val, h.generation, level.code]) s =
        .next (answer p seq .staleHandle [] s)) ∧
      exec (.release p seq [byteOf h.slot.val, h.generation]) s = .next (answer p seq .staleHandle [] s) ∧
      (p = 0 → exec (.revoke p seq [byteOf h.slot.val, h.generation]) s = .next (answer p seq .staleHandle [] s))) ∧
    (∀ l, s.named h = some l → l.holder ≠ p →
      exec (.renew p seq [byteOf h.slot.val, h.generation, t1, t0]) s = .next (answer p seq .notHolder [] s) ∧
      (level ≠ .off → (∀ r ∈ s.record l.domain, level.num ≤ r.maxLevel.num) →
        exec (.modify p seq [byteOf h.slot.val, h.generation, level.code]) s = .next (answer p seq .notHolder [] s)) ∧
      exec (.release p seq [byteOf h.slot.val, h.generation]) s = .next (answer p seq .notHolder [] s)) ∧
    (∀ l cause, s.named h = some l → l.state = .ended cause →
      (l.holder = p → exec (.renew p seq [byteOf h.slot.val, h.generation, t1, t0]) s =
        .next (answer p seq .leaseEnded [cause.code] s)) ∧
      (l.holder = p → level ≠ .off → (∀ r ∈ s.record l.domain, level.num ≤ r.maxLevel.num) →
        exec (.modify p seq [byteOf h.slot.val, h.generation, level.code]) s =
          .next (answer p seq .leaseEnded [cause.code] s)) ∧
      (p = 0 → exec (.revoke p seq [byteOf h.slot.val, h.generation]) s =
        .next (answer p seq .leaseEnded [cause.code] s))) ∧
    (∀ l, s.named h = some l → l.holder = p → l.live = true → l.term = .standing →
      exec (.renew p seq [byteOf h.slot.val, h.generation, t1, t0]) s = .next (answer p seq .wrongKind [] s)) ∧
    (∀ x g : Byte, 47 < x.toNat →
      exec (.renew p seq [x, g, t1, t0]) s = .next (answer p seq .badValue [] s) ∧
      exec (.release p seq [x, g]) s = .next (answer p seq .badValue [] s) ∧
      (p = 0 → exec (.revoke p seq [x, g]) s = .next (answer p seq .badValue [] s))) ∧
    (∀ x g b : Byte, 47 < x.toNat ∨ 3 < b.toNat →
      exec (.modify p seq [x, g, b]) s = .next (answer p seq .badValue [] s)) ∧
    exec (.modify p seq [byteOf h.slot.val, h.generation, 0]) s = .next (answer p seq .badLevel [] s) ∧
    (∀ l r, s.named h = some l → s.record l.domain = some r → r.maxLevel.num < level.num →
      exec (.modify p seq [byteOf h.slot.val, h.generation, level.code]) s = .next (answer p seq .badLevel [] s))

/-- RENEW stores a non-zero time and loads the countdown of a HELD lease (09 R157, 02 R31, 02 R29, 02 R45). The mark
that a loading leaves is the model's own (log 22). -/
def Obligations.RenewLoadsTheTime : Prop :=
  ∀ (s : State) (p : Agent) (seq : Byte) (h : Handle) (l : Lease) (n time : Nat) (term : Term), s.executes p seq = true →
    s.partState = .run → s.named h = some l → l.holder = p → l.live = true → time ≤ 65535 →
    (l.term = .timed n ∧ term = .timed (if time = 0 then n else time) ∨
      ∃ w, l.term = .watched n w ∧ term = .watched (if time = 0 then n else time) w) →
    exec (.renew p seq ([byteOf h.slot.val, h.generation] ++ bigEndian 2 time)) s = .next
      (if l.state = .pending then
        answer p seq .ok ([1] ++ bigEndian 2 (if time = 0 then n else time) ++ [0, 0])
          (withLease h.slot { l with term := term } s)
      else
        answer p seq .ok ([2] ++ bigEndian 2 (if time = 0 then n else time) ++ bigEndian 2 (if time = 0 then n else time))
          (withLease h.slot { l with term := term, state := l.state.load (some (if time = 0 then n else time)) } s))

/-- MODIFY sets the wanted level, and the granted level to the lower of it and the assured level (09 R159, 02 R34, 02
R35, 08 R127). The clause on the level already wanted is the model's reading of R159 beside R34 and R35 (log 21);
the mark that a loading leaves is the model's own (log 22). -/
def Obligations.ModifySetsTheLevels : Prop :=
  ∀ (s : State) (p : Agent) (seq : Byte) (h : Handle) (l m : Lease) (r : DomainRecord) (level : Level),
    s.executes p seq = true → s.partState = .run → s.named h = some l → l.holder = p → l.live = true →
    s.record l.domain = some r → level ≠ .off → level.num ≤ r.maxLevel.num →
    (m = if level = l.wanted then l
      else if l.state = .pending then
        if level.num ≤ (s.assuredOf l.domain).num then
          { l with wanted := level, granted := some level, state := .held (l.term.time.map Countdown.start) }
        else { l with wanted := level }
      else { l with wanted := level, granted := some (level.lower (s.assuredOf l.domain)) }) →
    exec (.modify p seq [byteOf h.slot.val, h.generation, level.code]) s = .next (answer p seq .ok
      [if m.state = .pending then 1 else 2, m.wanted.code, byteOf (grantedNum m.granted), (s.assuredOf l.domain).code]
      ((withLease h.slot m s).setQueue p ((s.queue p).map fun n =>
        match n, m.granted with
        | .granted g old, some new => if g.slot = h.slot ∧ m.granted ≠ l.granted then .granted g new else .granted g old
        | _, _ => n)))

/-- RELEASE frees the slot of a live or ended lease and tells the state it had (09 R161, 02 R40, 02 R39, 08 R133). -/
def Obligations.ReleaseFreesTheSlot : Prop :=
  ∀ (s : State) (p : Agent) (seq : Byte) (h : Handle) (l : Lease), s.executes p seq = true → s.partState = .run →
    s.named h = some l → l.holder = p →
    exec (.release p seq [byteOf h.slot.val, h.generation]) s = .next (answer p seq .ok
      [l.state.code, match l.state with | .ended cause => cause.code | _ => 0] (withFreed (fun i => i == h.slot) s))

/-- TAKE_NOTICE takes the head of the agent's own queue; an ENDED notice frees its slot (08 R132, 09 R162, 02 R41, 11
R200). -/
def Obligations.TakeNoticeTakesTheHead : Prop :=
  ∀ (s : State) (p : Agent) (seq : Byte), s.executes p seq = true →
    (s.queue p = [] → exec (.takeNotice p seq []) s = .next (answer p seq .ok [0] s)) ∧
    (∀ n rest, s.queue p = n :: rest → (∀ h cause, n ≠ .ended h cause) →
      exec (.takeNotice p seq []) s =
        .next (answer p seq .ok (byteOf rest.length :: noticeEntry n) (s.setQueue p rest))) ∧
    (∀ h cause rest, s.queue p = .ended h cause :: rest →
      exec (.takeNotice p seq []) s = .next (answer p seq .ok
        [byteOf ((withFreed (fun i => i == h.slot) (s.setQueue p rest)).queue p).length, 2, byteOf h.slot.val,
          h.generation, cause.code]
        (withFreed (fun i => i == h.slot) (s.setQueue p rest))))

/-- DETACH and EVICT free every slot of the agent in one event and empty its queue (09 R163, 09 R164, 10 R185, 02 R42,
08 R134). -/
def Obligations.DetachAndEvictFreeTheAgent : Prop :=
  ∀ (s : State) (p a : Agent) (seq : Byte), s.executes p seq = true →
    (s.partState ≠ .stopping →
      exec (.detach p seq []) s = .next (answer p seq .ok
        [byteOf (s.slotsOf p).length, byteOf (s.queue p).length] (withoutAgent p s))) ∧
    (s.partState = .run → p = 0 →
      exec (.evict p seq [byteOf a.val]) s = .next (answer p seq .ok
        [byteOf (s.slotsOf a).length, byteOf (s.queue a).length] (withoutAgent a s)) ∧
      ∀ b : Byte, 3 < b.toNat → exec (.evict p seq [b]) s = .next (answer p seq .badValue [] s))

/-- REVOKE ends a live lease of any holder with cause REVOKED (10 R184, 02 R36, 02 R37). -/
def Obligations.RevokeEndsTheLease : Prop :=
  ∀ (s : State) (seq : Byte) (h : Handle) (l : Lease), s.executes 0 seq = true → s.partState = .run →
    s.named h = some l → l.live = true →
    exec (.revoke 0 seq [byteOf h.slot.val, h.generation]) s = .next (answer 0 seq .ok
      [byteOf l.holder.val, if l.state = .pending then 1 else 2] (withEnded [h.slot] (fun _ => .revoked) s))

/-- A slot's generation advances by one when the slot becomes FREE, and at no other time but part reset (R23). -/
def Obligations.GenerationsCountTheFreeings : Prop :=
  (∀ (c : Instr) (s t : State) (i : SlotId), c ≠ .partReset → exec c s = .next t →
    (s.lease i ≠ none ∧ t.slot i = { generation := (s.slot i).generation + 1, lease := none }) ∨
    ((t.slot i).generation = (s.slot i).generation ∧ (s.lease i ≠ none → t.lease i ≠ none))) ∧
  (∀ (s t : State) (i : SlotId), exec .partReset s = .next t → (t.slot i).generation = 0)

/-- DEFINE_DOMAIN replaces or removes one record in SETUP (10 R172, 10 R173, 01 R5, 01 R6, 01 R7). -/
def Obligations.DefineDomainWritesTheRecord : Prop :=
  ∀ (s : State) (seq : Byte) (d : Managed) (r : DomainRecord) (body : List Byte) (x1 x2 x4 x5 x6 x7 x8 x9 : Byte),
    s.executes 0 seq = true → s.partState = .setup → r.inRange d → recordBody d r body →
    ((s.engine d).state ≠ .fault →
      exec (.defineDomain 0 seq body) s =
        .next (answer 0 seq .ok [] { s with records := s.records.set d (some r) }) ∧
      exec (.defineDomain 0 seq [managedCode d, x1, x2, 0, x4, x5, x6, x7, x8, x9]) s =
        .next (answer 0 seq .ok [] { s with records := s.records.set d none })) ∧
    ((s.engine d).state = .fault →
      exec (.defineDomain 0 seq body) s = .next (answer 0 seq .domainFault [] s) ∧
      exec (.defineDomain 0 seq [managedCode d, x1, x2, 0, x4, x5, x6, x7, x8, x9]) s =
        .next (answer 0 seq .domainFault [] s)) ∧
    (∀ b : Byte, 0 < b.toNat → b.toNat ≤ 3 → d.val < x1.toNat →
      exec (.defineDomain 0 seq [managedCode d, x1, x2, b, x4, x5, x6, x7, x8, x9]) s =
        .next (answer 0 seq .badValue [] s)) ∧
    exec (.defineDomain 0 seq [0, x1, x2, 0, x4, x5, x6, x7, x8, x9]) s = .next (answer 0 seq .badValue [] s)

/-- DEFINE_WAKE writes one wake record in SETUP; QUERY_WAKE reports a line's record, link and detector (10 R174, 10
R178, 07 R121, 11 R200). -/
def Obligations.WakeRecordsAreWrittenAndReported : Prop :=
  (∀ (s : State) (seq : Byte) (k : LineId) (enabled : Bool) (edge : Edge) (agent : Agent) (home : Domain)
      (template : Option Template) (body : List Byte), s.executes 0 seq = true → s.partState = .setup →
      (∀ t ∈ template, t.level ≠ .off ∧ 1 ≤ t.duration ∧ t.duration ≤ 65535) →
      wakeBody k enabled edge agent home template body →
      exec (.defineWake 0 seq body) s = .next (answer 0 seq .ok [] (s.setWake k
        { enabled := enabled, edge := edge, agent := agent, home := home, template := template, link := none,
          baseline := none }))) ∧
  (∀ (s : State) (seq : Byte), s.executes 0 seq = true →
      (∀ k : LineId, exec (.queryWake 0 seq [byteOf k.val]) s = .next (answer 0 seq .ok
        ([yesNoCode (s.wake k).enabled, (s.wake k).edge.code, byteOf (s.wake k).agent.val, byteOf (s.wake k).home.val] ++
          (match (s.wake k).template with
            | some t => [1, managedCode t.domain, t.level.code] ++ bigEndian 2 t.duration
            | none => [0, 0, 0, 0, 0]) ++
          (match (s.wake k).link with
            | some h => [1, byteOf h.slot.val, h.generation]
            | none => [0, 0, 0]) ++
          [yesNoCode (s.partState == .run && (s.wake k).enabled && decide (1 ≤ (s.assured (s.wake k).home).num))]) s)) ∧
      (∀ b : Byte, 7 < b.toNat → exec (.queryWake 0 seq [b]) s = .next (answer 0 seq .badValue [] s)))

/-- SET_WINDOW writes a range and keeps the users count; CLEAR_WINDOW clears an unused window (06 R107, 10 R175, 10
R176). -/
def Obligations.WindowsAreWrittenAndCleared : Prop :=
  ∀ (s : State) (seq : Byte) (w : WindowId) (base : Address) (length : Nat), s.executes 0 seq = true →
    s.partState ≠ .stopping → length < 1099511627776 →
    exec (.setWindow 0 seq ([byteOf w.val] ++ bigEndian 4 base.toNat ++ bigEndian 5 length)) s = .next
      (if 1 ≤ length ∧ base.toNat + length ≤ 4294967296 then
        answer 0 seq .ok [byteOf (s.window w).users]
          (s.setWindow w { range := some { base := base, length := length }, users := (s.window w).users })
      else answer 0 seq .badValue [] s) ∧
    exec (.clearWindow 0 seq [byteOf w.val]) s = .next
      (if 0 < (s.window w).users then answer 0 seq .windowInUse [byteOf (s.window w).users] s
      else answer 0 seq .ok [] (s.setWindow w { range := none, users := (s.window w).users }))

/-- SET_WAKE_ENABLE enables a line that passes START's check and disables any line (10 R177, 07 R122, 07 R113). -/
def Obligations.WakeEnableSwitchesTheLine : Prop :=
  ∀ (s : State) (seq : Byte) (k : LineId), s.executes 0 seq = true → s.partState = .run → detectorLaw s →
    ((s.wake k).enabled = false → lineChecked s k →
      exec (.setWakeEnable 0 seq [byteOf k.val, 1]) s = .next (answer 0 seq .ok
        [1, yesNoCode (decide (1 ≤ (s.assured (s.wake k).home).num))]
        (s.setWake k { s.wake k with
          enabled := true, link := none,
          baseline := if 1 ≤ (s.assured (s.wake k).home).num then some s.lines[k] else none }))) ∧
    ((s.wake k).enabled = false → ¬ lineChecked s k →
      exec (.setWakeEnable 0 seq [byteOf k.val, 1]) s = .next (answer 0 seq .badConfig [2, byteOf k.val] s)) ∧
    ((s.wake k).enabled = true →
      exec (.setWakeEnable 0 seq [byteOf k.val, 0]) s = .next (answer 0 seq .ok [0, 0]
        (s.setWake k { s.wake k with enabled := false, link := none, baseline := none })) ∧
      exec (.setWakeEnable 0 seq [byteOf k.val, 1]) s =
        .next (answer 0 seq .ok [1, yesNoCode (s.detectorActive k)] s)) ∧
    ((s.wake k).enabled = false →
      exec (.setWakeEnable 0 seq [byteOf k.val, 0]) s = .next (answer 0 seq .ok [0, 0] s))

/-- START checks faults, then domains, then enabled lines, and takes the part to RUN (10 R179, 10 R180). -/
def Obligations.StartChecksAndRuns : Prop :=
  ∀ (s : State) (seq : Byte), s.executes 0 seq = true → s.partState = .setup →
    ((∃ d, (s.engine d).state = .fault) → exec (.start 0 seq []) s = .next (answer 0 seq .domainFault [] s)) ∧
    ((∀ d, (s.engine d).state ≠ .fault) →
      (∀ d, ¬ domainChecked s d → (∀ e < d, domainChecked s e) →
        exec (.start 0 seq []) s = .next (answer 0 seq .badConfig [1, managedCode d] s)) ∧
      ((∀ d, domainChecked s d) →
        (∀ k, (s.wake k).enabled = true → ¬ lineChecked s k →
          (∀ j < k, (s.wake j).enabled = true → lineChecked s j) →
          exec (.start 0 seq []) s = .next (answer 0 seq .badConfig [2, byteOf k.val] s)) ∧
        ((∀ k, (s.wake k).enabled = true → lineChecked s k) → (∀ k, (s.wake k).baseline = none) →
          exec (.start 0 seq []) s = .next (answer 0 seq .ok []
            { s with
              partState := .run
              wakes := Vector.ofFn fun k =>
                if (s.wake k).enabled = true ∧ 1 ≤ (s.assured (s.wake k).home).num then
                  { s.wake k with baseline := some s.lines[k] }
                else s.wake k }))))

/-- RESTART frees every slot, empties every queue and takes the part to STOPPING or on to SETUP (10 R181, 02 R43, 08
R134, 07 R123). -/
def Obligations.RestartFreesEverything : Prop :=
  ∀ (s : State) (seq : Byte), s.executes 0 seq = true → s.partState = .run →
    let u := withFreed (fun _ => true) s
    let after : PartState := if ∀ d, (s.engine d).down = true then .setup else .stopping
    exec (.restart 0 seq []) s = .next (answer 0 seq .ok [byteOf s.usedSlots.length, after.code]
      { u with
        partState := after
        queues := Vector.replicate 4 []
        wakes := u.wakes.map fun w => { w with baseline := none } })

/-- CLEAR_FAULT checks fault, drains and PGOOD in order, and returns the domain to OFF with its cause kept (05 R94, 05
R95, 10 R186). -/
def Obligations.ClearFaultReturnsTheDomainToOff : Prop :=
  ∀ (s : State) (seq : Byte) (d : Managed), s.executes 0 seq = true → s.partState ≠ .stopping →
    exec (.clearFault 0 seq [0]) s = .next (answer 0 seq .noDomain [] s) ∧
    (s.record d = none → exec (.clearFault 0 seq [managedCode d]) s = .next (answer 0 seq .noDomain [] s)) ∧
    (s.record d ≠ none →
      if (s.engine d).state ≠ .fault then
        exec (.clearFault 0 seq [managedCode d]) s = .next (answer 0 seq .notFaulted [] s)
      else if (s.engine d).drainComplete = false ∨ ∃ e, s.below d e = true ∧ (s.engine e).drains = true then
        exec (.clearFault 0 seq [managedCode d]) s = .next (answer 0 seq .stillDraining [] s)
      else if s.pgood[d] = true then
        exec (.clearFault 0 seq [managedCode d]) s = .next (answer 0 seq .stillPowered [] s)
      else faultLaw s → recordLaw s → detectorLaw s →
        exec (.clearFault 0 seq [managedCode d]) s = .next (answer 0 seq .ok [faultCauseCode (s.engine d).cause]
          { s with
            engines := s.engines.set d
              { state := .off, timer := none, cause := (s.engine d).cause, drainComplete := false }
            reports := s.reports.set d (some .off) }))

/-- A good tap word in RUN loads every HELD watched lease whose window the address matches (06 R98, 06 R99, 06 R100, 06
R103, 06 R104, 11 R201). That a held reset takes no word (log 12) is the model's reading; the mark that a loading
leaves is its own (log 22). -/
def Obligations.TapWordReloadsWatchedLeases : Prop :=
  (∀ (s : State) (a : Address) (parity : Bool), s.resetHeld = false → s.tapAwaits = false → s.partState = .run →
    (wordBits a parity).count true % 2 = 1 → exec (.tapWord (wordBits a parity)) s = .next (withReloads a s)) ∧
  (∀ (s : State) (bits : List Bool), bits.length ≠ 33 ∨ bits.count true % 2 = 0 ∨ s.partState ≠ .run ∨
    s.resetHeld = true ∨ s.tapAwaits = true → exec (.tapWord bits) s = .next s)

/-- A line event is an edge only at an active detector, and only a selected edge makes a claim (07 R114, 07 R113). The
clause on a held reset is the model's reading (log 12); that the line event sets the sampled level is log 20. -/
def Obligations.LineEventsFollowTheBaseline : Prop :=
  ∀ (s : State) (k : LineId) (level : Bool),
    (s.resetHeld = true ∨ s.detectorActive k = false ∨ (s.wake k).baseline = none ∨ (s.wake k).baseline = some level →
      exec (.lineEvent k level) s = .next { s with lines := s.lines.set k level }) ∧
    (s.resetHeld = false → s.detectorActive k = true → (s.wake k).baseline = some (!level) →
      (s.wake k).edge = (if level then .fall else .rise) →
      exec (.lineEvent k level) s = .next
        (State.setWake k { s.wake k with baseline := some level } { s with lines := s.lines.set k level }))

/-- A selected edge makes one claim: the first row that holds decides, and a WAKE notice is posted (07 R116, 07 R117,
07 R118, 02 R28, 08 R129). The mark that a loading leaves is the model's own (log 22). -/
def Obligations.WakeClaimSettlesByTheFirstRow : Prop :=
  ∀ (s u : State) (k : LineId) (level : Bool), s.resetHeld = false → s.detectorActive k = true →
    (s.wake k).baseline = some (!level) → (s.wake k).edge = .both ∨ (s.wake k).edge = (if level then .rise else .fall) →
    u = State.setWake k { s.wake k with baseline := some level } { s with lines := s.lines.set k level } →
    let tells := fun (outcome : WakeOutcome) (v : State) =>
      v.setQueue (s.wake k).agent (postTo (.wake k 1 outcome) (v.queue (s.wake k).agent))
    ((s.wake k).template = none → exec (.lineEvent k level) s = .next (tells .none u)) ∧
    (∀ t, (s.wake k).template = some t →
      (∀ h l n, (s.wake k).link = some h → s.named h = some l → l.live = true → l.term = .timed n →
        exec (.lineEvent k level) s = .next (tells .renewed (withLease h.slot
          { l with
            term := .timed t.duration
            state := l.state.load (some t.duration) } u))) ∧
      ((s.wake k).link = none →
        if s.faultAtOrAbove t.domain = true then exec (.lineEvent k level) s = .next (tells .notMadeFault u)
        else if 16 ≤ (s.slotsOf (s.wake k).agent).length then
          exec (.lineEvent k level) s = .next (tells .notMadeQuota u)
        else
          ((∀ i, s.lease i ≠ none) → exec (.lineEvent k level) s = .next (tells .notMadeTable u)) ∧
          (∀ i, s.lease i = none → (∀ j < i, s.lease j ≠ none) →
            exec (.lineEvent k level) s = .next
              (tells (if t.level.num ≤ (s.assuredOf t.domain).num then .madeHeld else .madePending)
                (State.setWake k { s.wake k with baseline := some level, link := some (s.handle i) }
                  (withNewLease i
                    { holder := (s.wake k).agent, domain := t.domain, term := .timed t.duration, wanted := t.level,
                      granted := if t.level.num ≤ (s.assuredOf t.domain).num then some t.level else none,
                      state := if t.level.num ≤ (s.assuredOf t.domain).num then .held (some (Countdown.start t.duration)) else .pending,
                      tag := 0, origin := .line k } u))))))

/-- The children of a domain, and its target: OFF under a fault, else the greatest wanted level and holding child's
floor (01 R1, 01 R9, 01 R13, 01 R14, 02 R25). That the live leases of a domain are read through its lease list is
the model's inference from R25 (log 18). -/
def Obligations.TargetIsTheGreatestClaim : Prop :=
  (∀ (s : State) (p : Domain) (c : Managed) (floor : Level), (c, floor) ∈ s.children p ↔
    ∃ r, s.record c = some r ∧ r.parent = p ∧ r.floor = floor ∧ p < managedDomain c ∧
      (p = 0 ∨ ∃ m, p = managedDomain m ∧ s.record m ≠ none)) ∧
  (∀ (s : State) (d : Managed), s.target d =
      if s.faultAtOrAbove d = true then .off
      else Level.greatest ((s.list d).filterMap (fun i => (s.lease i).map Lease.wanted) ++
        ((s.children (managedDomain d)).filter fun c => s.target c.1 != .off || !(s.engine c.1).down).map Prod.snd))

/-- Outputs are the table's, change in R50's order, never unsafe; attention is asserted while the queue holds an entry
(01 R2, 01 R3, 03 R49, 03 R50, 08 R135, 11 R187, 11 R202). -/
def Obligations.OutputsAndAttentionFollowTheState : Prop :=
  (∀ (s : State) (d : Managed),
    (s.record d = none →
      s.outputs d = { railen := false, drst := true, iso := true, ckrq := false, vsel := false }) ∧
    (∀ r, s.record d = some r → s.outputs d = tableOutputs (s.engine d).state r.maxLevel) ∧
    (levelLaw s → (s.outputs d).safe = true)) ∧
  (∀ (d : Managed) (a b : Outputs),
    outputChanges d a b = (changeOrder.filter fun c => a.line c.1 != c.2 && b.line c.1 == c.2).map fun c => ⟨d, c.1, c.2⟩) ∧
  (∀ (d : Managed) (a b : Outputs) (n : Nat), a.safe = true → b.safe = true →
    (outputChanges d a b).foldl Outputs.change a = b ∧
    (((outputChanges d a b).take n).foldl Outputs.change a).safe = true) ∧
  (∀ (s : State) (a : Agent) (d : Managed),
    (s.attention a = true ↔ s.queue a ≠ []) ∧ (s.atnPin a = false ↔ s.queue a ≠ []) ∧
    (∀ line, s.domainPin d line = ((s.outputs d).line line != (line == .drst))) ∧
    (heldResetLaw s → s.resetHeld = true →
      s.atnPin a = true ∧ [OutputLine.railen, .drst, .iso, .ckrq, .vsel].map (s.domainPin d) = [false, false, true, false, false]))

/-- PGOOD in RAIL_UP, and the ends of SETTLE, CLOCK_UP, BOOST_UP and BOOST_DOWN: arrivals re-evaluate at once (03 R52,
03 R53, 03 R57, 03 R58, 03 R59, 03 R60, 03 R61, 03 R67, 03 R50). An expired step timer is held as 0 until its
expiry command (log 6) and the pin log (log 8) are the model's choices. -/
def Obligations.TimedStepsArrive : Prop :=
  ∀ (s : State) (d : Managed) (r : DomainRecord), s.resetHeld = false →
    let u : State := { s with pgood := s.pgood.set d true }
    ((s.engine d).state ≠ .railUp → exec (.pgoodAsserted d) s = .next u) ∧
    ((s.engine d).state = .railUp → s.fits d r .retain → 0 < r.settle →
      ∃ t, exec (.pgoodAsserted d) s = .next t ∧
        t.engine d = { s.engine d with state := .settle, timer := some r.settle } ∧
        (∀ e, e ≠ d → t.engine e = s.engine e) ∧ t.reports = s.reports ∧ t.freeUnits = s.freeUnits ∧
        t.rampQueue = s.rampQueue ∧ t.partState = s.partState ∧ engineFrame d u t) ∧
    ((s.engine d).state = .railUp → s.fits d r .retain → r.settle = 0 →
      ∃ t, exec (.pgoodAsserted d) s = .next t ∧ arrivesAt u t d r .retain ∧ t.freeUnits = s.freeUnits + r.weight) ∧
    ((s.engine d).state = .settle → (s.engine d).timer = some 0 → s.fits d r .retain →
      ∃ t, exec (.settleExpiry d) s = .next t ∧ arrivesAt s t d r .retain ∧ t.freeUnits = s.freeUnits + r.weight) ∧
    ((s.engine d).state = .clockUp → s.fits d r .run →
      ∃ t, exec (.ckokAsserted d) s = .next t ∧ arrivesAt { s with ckok := s.ckok.set d true } t d r .run ∧
        t.freeUnits = s.freeUnits) ∧
    ((s.engine d).state = .boostUp → (s.engine d).timer = some 0 → s.fits d r .boost →
      ∃ t, exec (.boostUpExpiry d) s = .next t ∧ arrivesAt s t d r .boost ∧ t.freeUnits = s.freeUnits) ∧
    ((s.engine d).state = .boostDown → (s.engine d).timer = some 0 → s.fits d r .run →
      ∃ t, exec (.boostDownExpiry d) s = .next t ∧ arrivesAt s t d r .run ∧ t.freeUnits = s.freeUnits)

/-- A drain ends in OFF when PGOOD is down; a fault drain ends with drain-complete yes (03 R64, 03 R52, 03 R54, 05 R88,
10 R182). An expired step timer is held as 0 until its expiry command (log 6) and the pin log (log 8) are the
model's choices. -/
def Obligations.DrainsEndInOffOrStay : Prop :=
  ∀ (s : State) (d : Managed) (r : DomainRecord), s.resetHeld = false → recordLaw s → s.record d = some r →
    (s.engine d).timer = some 0 →
    ((s.engine d).state = .draining → s.pgood[d] = false →
      ∃ t, exec (.drainEnd d) s = .next t ∧ arrivesAtOff s t d) ∧
    ((s.engine d).state = .fault →
      ∃ t, exec (.faultDrainExpiry d) s = .next t ∧
        t.engine d = { s.engine d with timer := none, drainComplete := true } ∧
        (∀ e, e ≠ d → t.engine e = s.engine e) ∧ t.reports = s.reports ∧ t.freeUnits = s.freeUnits ∧
        t.rampQueue = s.rampQueue ∧ engineFrame d s t)

/-- Each of the five causes takes the whole fault event (05 R82, 05 R83, 05 R84, 05 R85, 05 R86, 05 R87, 02 R38, 03
R69, 03 R50). An expired step timer is held as 0 until its expiry command (log 6), a waiting domain cut to OFF
hands its OFF report (log 7), and the pin log (log 8): the model's choices. -/
def Obligations.FaultEventsAreWhole : Prop :=
  ∀ (s : State) (d : Managed) (r : DomainRecord), s.resetHeld = false → recordLaw s → listLaw s → s.record d = some r →
    ((s.engine d).state.supervisesPgood = true →
      ∃ t, exec (.pgoodDeasserted d) s = .next t ∧
        faultOutcome { s with pgood := s.pgood.set d false } t d r .pgoodLost) ∧
    ((s.engine d).state.supervisesCkok = true → Level.retain.num < r.maxLevel.num →
      ∃ t, exec (.ckokDeasserted d) s = .next t ∧
        faultOutcome { s with ckok := s.ckok.set d false } t d r .clockLost) ∧
    ((s.engine d).state = .railUp → (s.engine d).timer = some 0 →
      ∃ t, exec (.railUpExpiry d) s = .next t ∧ faultOutcome s t d r .riseTimeout) ∧
    ((s.engine d).state = .clockUp → (s.engine d).timer = some 0 →
      ∃ t, exec (.clockUpExpiry d) s = .next t ∧ faultOutcome s t d r .clockTimeout) ∧
    ((s.engine d).state = .draining → (s.engine d).timer = some 0 → s.pgood[d] = true →
      ∃ t, exec (.drainEnd d) s = .next t ∧ faultOutcome s t d r .stuckRail)

/-- Input changes a state does not act on change only the pin; expiries not due change nothing but the model's marks
(03 R67, 03 R68, 03 R57, 03 R59, 01 R3, 03 R51, 02 R30). The clauses on commands that are not due and on a held
reset are the model's reading (log 4 to log 6, log 12). -/
def Obligations.EventsNotDueChangeNothing : Prop :=
  ∀ (s : State) (d : Managed) (i : SlotId),
    ((s.engine d).state ∈ [EngineState.off, .waitParent, .waitBudget, .railUp, .draining, .fault] ∨ s.resetHeld = true →
      exec (.pgoodDeasserted d) s = .next { s with pgood := s.pgood.set d false }) ∧
    (s.resetHeld = true → exec (.pgoodAsserted d) s = .next { s with pgood := s.pgood.set d true }) ∧
    ((s.engine d).state ≠ .clockUp ∨ s.resetHeld = true →
      exec (.ckokAsserted d) s = .next { s with ckok := s.ckok.set d true }) ∧
    ((s.engine d).state ∉ [EngineState.run, .boostUp, .boost, .boostDown] ∨ s.resetHeld = true →
      exec (.ckokDeasserted d) s = .next { s with ckok := s.ckok.set d false }) ∧
    ((∀ r ∈ s.record d, r.maxLevel.num ≤ 1) →
      exec (.ckokAsserted d) s = .next { s with ckok := s.ckok.set d true } ∧
      exec (.ckokDeasserted d) s = .next { s with ckok := s.ckok.set d false }) ∧
    ((s.engine d).state ≠ .railUp ∨ (s.engine d).timer ≠ some 0 → exec (.railUpExpiry d) s = .next s) ∧
    ((s.engine d).state ≠ .settle ∨ (s.engine d).timer ≠ some 0 → exec (.settleExpiry d) s = .next s) ∧
    ((s.engine d).state ≠ .clockUp ∨ (s.engine d).timer ≠ some 0 → exec (.clockUpExpiry d) s = .next s) ∧
    ((s.engine d).state ≠ .boostUp ∨ (s.engine d).timer ≠ some 0 → exec (.boostUpExpiry d) s = .next s) ∧
    ((s.engine d).state ≠ .boostDown ∨ (s.engine d).timer ≠ some 0 → exec (.boostDownExpiry d) s = .next s) ∧
    ((s.engine d).state ≠ .draining ∨ (s.engine d).timer ≠ some 0 → exec (.drainEnd d) s = .next s) ∧
    ((s.engine d).state ≠ .fault ∨ (s.engine d).timer ≠ some 0 → exec (.faultDrainExpiry d) s = .next s) ∧
    ((∀ l ∈ s.lease i, ∀ c, l.state = .held (some c) → c.since = .passed ∨ (c.since ≠ .ahead ∧ 1 < c.left)) →
      exec (.leaseExpiry i) s = .next (if s.resetHeld = true then s else withSettled s)) ∧
    (s.report d = none → exec (.levelReachedReport d) s = .next s)

/-- A step-begin event begins the step that the target asks for as it then stands, or none (03 R53, 03 R54, 03 R55, 03
R56, 03 R61, 03 R62, 03 R63, 03 R50). That a step-begin command with nothing due changes nothing is the model's
reading (log 4), and the pin log its choice (log 8). -/
def Obligations.StepBeginReadsTheTarget : Prop :=
  ∀ (s : State) (d : Managed), s.resetHeld = false → recordLaw s →
    (s.stepDue d = false → detectorLaw s → stoppingLaw s →
      exec (.stepBegin d) s = .next s) ∧
    ((s.engine d).state = .off → s.target d ≠ .off → s.record d ≠ none →
      ∃ t, exec (.stepBegin d) s = .next t ∧ t.engine d = { s.engine d with state := risesTo s d, timer := none } ∧
        t.rampQueue = (if risesTo s d = .waitBudget then s.rampQueue ++ [d] else s.rampQueue) ∧
        (∀ e, e ≠ d → t.engine e = s.engine e) ∧ t.reports = s.reports ∧ t.freeUnits = s.freeUnits ∧
        t.partState = s.partState ∧ engineFrame d s t) ∧
    (∀ r level, (s.engine d).state = level.engineState → level ≠ .off → s.fits d r level → s.target d ≠ level →
      ∃ t, exec (.stepBegin d) s = .next t ∧ goesOn s t d r level ∧ t.freeUnits = s.freeUnits ∧
        t.partState = s.partState ∧ engineFrame d s t) ∧
    ((s.engine d).state = .waitParent → s.target d = .off →
      ∃ t, exec (.stepBegin d) s = .next t ∧ arrivesAtOff s t d) ∧
    ((s.engine d).state = .waitBudget → s.target d = .off →
      ∃ t, exec (.stepBegin d) s = .next t ∧ arrivesAtOff { s with rampQueue := s.rampQueue.filter fun e => e ≠ d } t d)

/-- A grant event grants heads while they fit, chains included, and lets no domain pass another (04 R76, 03 R57, 03
R58, 03 R50). The pin log is the model's choice (log 8). -/
def Obligations.RampGrantServesTheQueueInOrder : Prop :=
  ∀ (s : State), s.resetHeld = false → recordLaw s → queueLaw s → definedLaw s →
    ((∀ d ∈ s.rampQueue, ∀ r ∈ s.record d, s.pgoodSeen d = false ∨ 0 < r.settle) →
      let granted := s.rampQueue.take (fitting s s.freeUnits s.rampQueue)
      ∃ t, exec .rampGrant s = .next t ∧
        (∀ d ∈ granted, ∀ r ∈ s.record d, t.engine d = s.granted d r) ∧
        (∀ d, d ∉ granted → t.engine d = s.engine d) ∧
        t = { s with
          engines := t.engines
          rampQueue := s.rampQueue.drop (fitting s s.freeUnits s.rampQueue)
          freeUnits := s.freeUnits - (granted.map s.weight).sum
          partState := partStateAfter s t
          wakes := Vector.ofFn (refreshedWake s t)
          pinLog := s.pinLog ++ pinChanges granted s t }) ∧
    (targetBound s →
      ∃ granted u t, grantsTaken s granted u ∧ (∀ d ∈ u.rampQueue.head?, u.freeUnits < u.weight d) ∧
        exec .rampGrant s = .next t ∧
        t = { u with partState := partStateAfter s t, wakes := Vector.ofFn (refreshedWake s t) })

/-- A level-reached report grants and upgrades the leases of the list up to the assured level that then holds (02 R32,
02 R29, 08 R126, 08 R127). The mark that a loading leaves is the model's own (log 22). -/
def Obligations.ReportGrantsTheList : Prop :=
  ∀ (s : State) (d : Managed) (level : Level), s.resetHeld = false → s.report d = some level → (s.list d).Nodup →
    exec (.levelReachedReport d) s = .next
      { s with
        reports := s.reports.set d none
        slots := Vector.ofFn fun i =>
          if i ∈ s.list d then { s.slot i with lease := (s.lease i).map (Lease.reported (s.assuredOf d)) } else s.slot i
        queues := Vector.ofFn fun a => postAll (s.grantNotices d a) (s.queue a) }

/-- A tick lowers countdowns and step timers, and ends in slot order the leases it brings to zero (02 R30, 03 R51, 02
R36). LEASE_EXPIRY as a share of the tick (log 5), that a step timer the tick brings to 0 stands there until its
expiry command (log 6), the marks of loadings and of expiries that have passed (log 22), and the clause on a held
reset (log 12) are the model's choices. -/
def Obligations.TickLowersEveryCountdown : Prop :=
  ∀ s : State,
    (s.resetHeld = false →
      let u := withEnded (allSlots.filter s.expires) s.expiryCauseAt s
      exec .tick s = .next { u with
        slots := u.slots.map fun x => { x with lease := x.lease.map Lease.ticked }
        engines := s.engines.map fun e => { e with timer := e.timer.map fun n => n - 1 } }) ∧
    (∀ i l c, s.resetHeld = false → s.lease i = some l → l.state = .held (some c) → c.left ≤ 1 →
      c.since ≠ .ahead → c.since ≠ .passed →
      exec (.leaseExpiry i) s = .next (withEnded [i] (fun _ => l.term.expiryCause) (withSettled s))) ∧
    (s.resetHeld = true → exec .tick s = .next s)

/-- A claim ahead of an expiry due at the same tick keeps the lease over it; any other loading of n expires at the n-th
tick (02 R45, 02 R30, 02 R46, 06 R106, 07 R119, 09 R157). That a LEASE_EXPIRY behind a loading ahead of a due
expiry says that the two fell at the same tick, that the first loading since a tick or a LEASE_EXPIRY decides, and
the mark that records it, are the model's choice (log 22). -/
def Obligations.ClaimAndExpiryAtOneTickEndAsR45Says : Prop :=
  (∀ (s : State) (p : Agent) (seq : Byte) (h : Handle) (l : Lease) (c : Countdown) (n time : Nat) (term : Term),
    s.resetHeld = false → s.executes p seq = true → s.partState = .run → s.named h = some l → l.holder = p →
    l.state = .held (some c) → time ≤ 65535 →
    (l.term = .timed n ∧ term = .timed (if time = 0 then n else time) ∨
      ∃ w, l.term = .watched n w ∧ term = .watched (if time = 0 then n else time) w) →
    let loaded := if time = 0 then n else time
    let renew := Instr.renew p seq ([byteOf h.slot.val, h.generation] ++ bigEndian 2 time)
    let goesOn := fun (left : Nat) => some { l with term := term, state := .held (some { left := left, since := .untouched }) }
    let ends := some { l with term := term, state := .ended l.term.expiryCause }
    (c.since = .untouched ∧ c.left ≤ 1 ∨ c.since = .ahead ∨ c.since = .passed →
      ∃ t u v, exec renew s = .next t ∧ exec (.leaseExpiry h.slot) t = .next u ∧ exec .tick u = .next v ∧
        v.lease h.slot = goesOn (if loaded ≤ 1 then loaded else loaded - 1)) ∧
    (c.since = .untouched ∧ 1 < c.left ∨ c.since = .loaded →
      ∃ t u v, exec renew s = .next t ∧ exec (.leaseExpiry h.slot) t = .next u ∧ exec .tick u = .next v ∧
        v.lease h.slot = if loaded ≤ 1 then ends else goesOn (loaded - 1)) ∧
    (c.since ≠ .passed →
      ∃ t v, exec renew s = .next t ∧ exec .tick t = .next v ∧
        v.lease h.slot = if loaded ≤ 1 then ends else goesOn (loaded - 1)) ∧
    (c.left ≤ 1 ∨ c.since = .ahead ∨ c.since = .passed → ∀ j, j ≠ h.slot →
      ∃ r t u v, exec (.leaseExpiry j) s = .next r ∧ exec renew r = .next t ∧ exec (.leaseExpiry h.slot) t = .next u ∧
        exec .tick u = .next v ∧ v.lease h.slot = goesOn (if loaded ≤ 1 then loaded else loaded - 1)) ∧
    (c.left ≤ 1 → c.since = .untouched ∨ c.since = .loaded →
      ∃ t, exec (.leaseExpiry h.slot) s = .next t ∧
        t.lease h.slot = some { l with state := .ended l.term.expiryCause } ∧
        exec renew t = .next (answer p seq .leaseEnded [l.term.expiryCause.code] t))) ∧
  (∀ time : Option Nat, LeaseState.load time (.held none) = .held (time.map fun n => { left := n, since := .loaded })) ∧
  (∀ (c : Countdown) (time : Option Nat), LeaseState.load time (.held (some c)) = .held (time.map fun n =>
    { left := n, since := if c.since = .untouched then (if c.left ≤ 1 then .ahead else .loaded) else c.since })) ∧
  (∀ l : Lease, l.grant.reload = l.grant ∧ l.reload.reload = l.reload ∧
    ∀ time, l.reload.renew time = (l.renew time).reload) ∧
  (∀ (s : State) (i : SlotId) (l : Lease) (n : Nat), s.resetHeld = false → s.lease i = some l →
    (l.state = .held (some { left := n, since := .ahead }) →
      exec (.leaseExpiry i) s =
        .next (withLease i { l with state := .held (some { left := n, since := .passed }) } (withSettled s))) ∧
    (l.state = .held (some { left := n, since := .passed }) →
      ∃ t, exec .tick s = .next t ∧ t.lease i = some { l with
        state := .held (some { left := if n ≤ 1 then n else n - 1, since := .untouched }) }))

/-- A part reset puts every block at its reset values, and every step keeps them there, until RESETN is released (10
R169, 03 R71, 03 R50, 11 R196, 06 R100). The input levels kept over a reset (log 2), the pin log (log 8) and the
operands of the release (log 13) are the model's choices. -/
def Obligations.ResetAndItsRelease : Prop :=
  (∀ (s : State) (chipSelects : Vector Bool 4) (tfrm : Bool) (p : Agent),
      (∃ t, exec .partReset s = .next t ∧ t = { State.reset with
          resetHeld := true, pgood := s.pgood, ckok := s.ckok, lines := s.lines,
          pinLog := s.pinLog ++ pinChanges descendingManaged s t, pending := s.pending }) ∧
      (s.resetHeld = true →
        exec (.partResetRelease chipSelects tfrm) s = .next { s with
          resetHeld := false
          tapAwaits := tfrm
          ports := Vector.ofFn fun q => { s.port q with awaitsDeselect := chipSelects[q] } }) ∧
      (s.resetHeld = false →
        exec (.partResetRelease chipSelects tfrm) s = .next s ∧
        exec (.chipSelectDeasserted p) s =
          .next { s with ports := s.ports.set p { s.port p with awaitsDeselect := false } } ∧
        exec .tfrmDeasserted s = .next { s with tapAwaits := false })) ∧
  (∀ s t : State, heldResetLaw s → step s = .next t → heldResetLaw t)

/-- The reset state keeps every law (10 R169, 04 R73, 08 R131). -/
def Obligations.ResetStateIsLawful : Prop :=
  Lawful State.reset

/-- No step takes a record, a template, a window, a held reply or a last sequence out of its range (01 R4, 06 R101, 07
R111, 11 R187, 11 R193, 11 R194). -/
def Obligations.ConfigurationAndPortsStayInRange : Prop :=
  (∀ s t : State, configurationLaw s → step s = .next t → configurationLaw t) ∧
  (∀ s t : State, listLaw s → replyLaw s ∧ sequenceLaw s → step s = .next t → replyLaw t ∧ sequenceLaw t)

/-- Held weights and free units always sum to 8, and the ramp queue is exactly the domains in WAIT_BUDGET (04 R73, 04
R74, 10 R167). -/
def Obligations.RampLawsAreKept : Prop :=
  ∀ s t : State, listLaw s ∧ emptyLaw s ∧ setupLaw s ∧ rampLaw s → step s = .next t →
    listLaw t ∧ emptyLaw t ∧ setupLaw t ∧ rampLaw t

/-- A queue never repeats a notice, every queued notice stays true of the table, and none has over 55 entries (08 R125,
08 R127, 08 R128, 08 R131). -/
def Obligations.NoticeQueuesNeverRepeat : Prop :=
  (∀ s t : State, noticeLaw s → step s = .next t → noticeLaw t) ∧
  (∀ s : State, noticeLaw s → quotaLaw s → queueBound s)

/-- The lease table's laws survive every step (02 R19, 02 R24, 02 R25, 02 R33, 06 R102, 07 R112). -/
def Obligations.LeaseTableLawsAreKept : Prop :=
  ∀ s t : State, templateLaw s → tableLaw s → step s = .next t → tableLaw t

/-- No domain keeps its rail below its parent's floor, and no lease or rail stands under a fault (01 R12, 03 R49, 05
R91, 01 R7). -/
def Obligations.FloorsAndFaultsAreKept : Prop :=
  ∀ s t : State, recordLaw s ∧ listLaw s ∧ emptyLaw s ∧ definedLaw s ∧ setupLaw s ∧ rampLaw s ∧ faultLaw s ∧ floorLaw s →
    step s = .next t →
    recordLaw t ∧ listLaw t ∧ emptyLaw t ∧ definedLaw t ∧ setupLaw t ∧ rampLaw t ∧ faultLaw t ∧ floorLaw t

/-- A step timer runs exactly in the timed states, and no domain goes above its maximum level (03 R48, 03 R49, 01 R3,
01 R15, 01 R17). -/
def Obligations.TimersAndLevelsAreKept : Prop :=
  ∀ s t : State, recordLaw s → definedLaw s → setupLaw s → queueLaw s → step s = .next t →
    (timerLaw s → timerLaw t) ∧ (levelLaw s → levelLaw t)

/-- Outside SETUP the checks of START go on standing, and no live lease and no target is above its maximum level (01
R15, 10 R179, 07 R122, 09 R158). -/
def Obligations.WantedLevelsStayWithinTheMaximum : Prop :=
  (∀ s t : State, startLaw s → step s = .next t → startLaw t ∧ (emptyLaw s → wantedLaw s → wantedLaw t)) ∧
  (∀ s : State, startLaw s → emptyLaw s → listLaw s → setupLaw s → wantedLaw s → targetBound s)

/-- Once granted, a lease's domain stays at or above its granted level until the lease ends (02 R33, 01 R10, 03 R66). -/
def Obligations.GrantedLevelsStayAssured : Prop :=
  ∀ s t : State, configurationLaw s → tableLaw s → engineLaw s → grantedLaw s → step s = .next t → grantedLaw t

/-- A baseline is present exactly while its detector is active, and STOPPING ends with the last domain up (07 R113, 07
R114, 10 R182). -/
def Obligations.BaselinesAndStoppingFollowTheEngines : Prop :=
  ∀ s t : State, step s = .next t → (detectorLaw s → detectorLaw t) ∧ (stoppingLaw s → stoppingLaw t)
end

