-- ==== Sys2Proof/Laws/Checks.lean ====
section
/-! SUPPORT. A domain's place in the tree, and START's checks of a domain and of a wake line, as the rules say them. -/

namespace Sys2Proof.Machine

/-- R11: D0 alone is not managed. -/
theorem asManaged_eq_none (d : Domain) : asManaged d = none ↔ d = 0 := by revert d; decide

theorem num_le_boost (l : Level) : l.num ≤ Level.boost.num := by cases l <;> decide

/-- R1: what a domain with a place in the tree is. -/
theorem place_eq_some_iff (s : State) (d : Managed) (p : Domain) (floor : Level) : s.place d = some (p, floor) ↔
    ∃ r, s.record d = some r ∧ r.parent = p ∧ r.floor = floor ∧ p.val ≤ d.val ∧ s.defined p = true := by
  unfold State.place
  cases s.record d with
  | none => simp
  | some r =>
    dsimp only
    split
    · rename_i h
      constructor
      · intro e; cases e; exact ⟨r, rfl, rfl, rfl, h⟩
      · rintro ⟨_, e, rfl, rfl, _⟩; cases e; rfl
    · rename_i h
      simp only [reduceCtorEq, false_iff]
      rintro ⟨_, e, rfl, rfl, k⟩; cases e; exact h k

/-- R1, R9: a domain has no place under an undefined one. -/
theorem place_undefined {s : State} {d : Managed} {r : DomainRecord} (h : s.record d = some r)
    (undefined : s.defined r.parent = false) : s.place d = none := by
  simp [State.place, h, undefined]

/-- R179, order 2. -/
theorem domainChecked_iff (s : State) (d : Managed) : domainChecked s d ↔ domainPasses s d = true := by
  unfold domainChecked domainPasses State.defined State.maxLevel
  cases s.record d with
  | none => simp
  | some r =>
    simp only [Option.mem_some_iff, forall_eq']
    cases hm : asManaged r.parent with
    | none => simp [(asManaged_eq_none _).1 hm, num_le_boost]
    | some m =>
      have root : r.parent ≠ 0 := fun h => by simp [(asManaged_eq_none _).2 h] at hm
      cases hr : s.record m <;> simp [root, hr]

/-- R122, R179, order 3. -/
theorem lineChecked_iff (s : State) (k : LineId) : lineChecked s k ↔ lineValid s (s.wake k) = true := by
  unfold lineChecked lineValid State.defined
  rw [Bool.and_eq_true]
  refine and_congr ?_ ?_
  · cases hm : asManaged (s.wake k).home with
    | none => simp [(asManaged_eq_none _).1 hm]
    | some m =>
      have root : (s.wake k).home ≠ 0 := fun h => by simp [(asManaged_eq_none _).2 h] at hm
      simp [root]
  · cases (s.wake k).template with
    | none => simp
    | some t => cases h : s.record t.domain <;> simp [h]

end Sys2Proof.Machine
end

