-- ==== Sys2Proof/Laws/State.lean ====
section
/-! SUPPORT. One lemma for each field under each named write of State: what it changes and what it leaves. -/

namespace Sys2Proof.Machine

variable (s : State)

/-! ### setRecord -/

@[simp] theorem partState_setRecord (d : Managed) (r : Option DomainRecord) : (s.setRecord d r).partState = s.partState := rfl
@[simp] theorem resetHeld_setRecord (d : Managed) (r : Option DomainRecord) : (s.setRecord d r).resetHeld = s.resetHeld := rfl
@[simp] theorem engines_setRecord (d : Managed) (r : Option DomainRecord) : (s.setRecord d r).engines = s.engines := rfl
@[simp] theorem reports_setRecord (d : Managed) (r : Option DomainRecord) : (s.setRecord d r).reports = s.reports := rfl
@[simp] theorem slots_setRecord (d : Managed) (r : Option DomainRecord) : (s.setRecord d r).slots = s.slots := rfl
@[simp] theorem lists_setRecord (d : Managed) (r : Option DomainRecord) : (s.setRecord d r).lists = s.lists := rfl
@[simp] theorem freeUnits_setRecord (d : Managed) (r : Option DomainRecord) : (s.setRecord d r).freeUnits = s.freeUnits := rfl
@[simp] theorem rampQueue_setRecord (d : Managed) (r : Option DomainRecord) : (s.setRecord d r).rampQueue = s.rampQueue := rfl
@[simp] theorem windows_setRecord (d : Managed) (r : Option DomainRecord) : (s.setRecord d r).windows = s.windows := rfl
@[simp] theorem tapAwaits_setRecord (d : Managed) (r : Option DomainRecord) : (s.setRecord d r).tapAwaits = s.tapAwaits := rfl
@[simp] theorem wakes_setRecord (d : Managed) (r : Option DomainRecord) : (s.setRecord d r).wakes = s.wakes := rfl
@[simp] theorem queues_setRecord (d : Managed) (r : Option DomainRecord) : (s.setRecord d r).queues = s.queues := rfl
@[simp] theorem ports_setRecord (d : Managed) (r : Option DomainRecord) : (s.setRecord d r).ports = s.ports := rfl
@[simp] theorem pgood_setRecord (d : Managed) (r : Option DomainRecord) : (s.setRecord d r).pgood = s.pgood := rfl
@[simp] theorem ckok_setRecord (d : Managed) (r : Option DomainRecord) : (s.setRecord d r).ckok = s.ckok := rfl
@[simp] theorem lines_setRecord (d : Managed) (r : Option DomainRecord) : (s.setRecord d r).lines = s.lines := rfl
@[simp] theorem pinLog_setRecord (d : Managed) (r : Option DomainRecord) : (s.setRecord d r).pinLog = s.pinLog := rfl
@[simp] theorem pending_setRecord (d : Managed) (r : Option DomainRecord) : (s.setRecord d r).pending = s.pending := rfl
@[simp] theorem engine_setRecord (d : Managed) (r : Option DomainRecord) : (s.setRecord d r).engine = s.engine := rfl
@[simp] theorem report_setRecord (d : Managed) (r : Option DomainRecord) : (s.setRecord d r).report = s.report := rfl
@[simp] theorem slot_setRecord (d : Managed) (r : Option DomainRecord) : (s.setRecord d r).slot = s.slot := rfl
@[simp] theorem lease_setRecord (d : Managed) (r : Option DomainRecord) : (s.setRecord d r).lease = s.lease := rfl
@[simp] theorem handle_setRecord (d : Managed) (r : Option DomainRecord) : (s.setRecord d r).handle = s.handle := rfl
@[simp] theorem named_setRecord (d : Managed) (r : Option DomainRecord) : (s.setRecord d r).named = s.named := rfl
@[simp] theorem list_setRecord (d : Managed) (r : Option DomainRecord) : (s.setRecord d r).list = s.list := rfl
@[simp] theorem window_setRecord (d : Managed) (r : Option DomainRecord) : (s.setRecord d r).window = s.window := rfl
@[simp] theorem wake_setRecord (d : Managed) (r : Option DomainRecord) : (s.setRecord d r).wake = s.wake := rfl
@[simp] theorem queue_setRecord (d : Managed) (r : Option DomainRecord) : (s.setRecord d r).queue = s.queue := rfl
@[simp] theorem port_setRecord (d : Managed) (r : Option DomainRecord) : (s.setRecord d r).port = s.port := rfl

theorem record_setRecord (j : Managed) (d : Managed) (r : Option DomainRecord) :
    (s.setRecord d r).record j = if j = d then r else s.record j := by
  simp [State.record, State.setRecord, Vector.getElem_set, Fin.ext_iff, eq_comm]
@[simp] theorem record_setRecord_self (d : Managed) (r : Option DomainRecord) : (s.setRecord d r).record d = r := by
  simp [record_setRecord]
theorem record_setRecord_ne {j d : Managed} (h : j ≠ d) (r : Option DomainRecord) : (s.setRecord d r).record j = s.record j := by
  simp [record_setRecord, h]

/-! ### setEngine -/

@[simp] theorem partState_setEngine (d : Managed) (e : Engine) : (s.setEngine d e).partState = s.partState := rfl
@[simp] theorem resetHeld_setEngine (d : Managed) (e : Engine) : (s.setEngine d e).resetHeld = s.resetHeld := rfl
@[simp] theorem records_setEngine (d : Managed) (e : Engine) : (s.setEngine d e).records = s.records := rfl
@[simp] theorem reports_setEngine (d : Managed) (e : Engine) : (s.setEngine d e).reports = s.reports := rfl
@[simp] theorem slots_setEngine (d : Managed) (e : Engine) : (s.setEngine d e).slots = s.slots := rfl
@[simp] theorem lists_setEngine (d : Managed) (e : Engine) : (s.setEngine d e).lists = s.lists := rfl
@[simp] theorem freeUnits_setEngine (d : Managed) (e : Engine) : (s.setEngine d e).freeUnits = s.freeUnits := rfl
@[simp] theorem rampQueue_setEngine (d : Managed) (e : Engine) : (s.setEngine d e).rampQueue = s.rampQueue := rfl
@[simp] theorem windows_setEngine (d : Managed) (e : Engine) : (s.setEngine d e).windows = s.windows := rfl
@[simp] theorem tapAwaits_setEngine (d : Managed) (e : Engine) : (s.setEngine d e).tapAwaits = s.tapAwaits := rfl
@[simp] theorem wakes_setEngine (d : Managed) (e : Engine) : (s.setEngine d e).wakes = s.wakes := rfl
@[simp] theorem queues_setEngine (d : Managed) (e : Engine) : (s.setEngine d e).queues = s.queues := rfl
@[simp] theorem ports_setEngine (d : Managed) (e : Engine) : (s.setEngine d e).ports = s.ports := rfl
@[simp] theorem pgood_setEngine (d : Managed) (e : Engine) : (s.setEngine d e).pgood = s.pgood := rfl
@[simp] theorem ckok_setEngine (d : Managed) (e : Engine) : (s.setEngine d e).ckok = s.ckok := rfl
@[simp] theorem lines_setEngine (d : Managed) (e : Engine) : (s.setEngine d e).lines = s.lines := rfl
@[simp] theorem pinLog_setEngine (d : Managed) (e : Engine) : (s.setEngine d e).pinLog = s.pinLog := rfl
@[simp] theorem pending_setEngine (d : Managed) (e : Engine) : (s.setEngine d e).pending = s.pending := rfl
@[simp] theorem record_setEngine (d : Managed) (e : Engine) : (s.setEngine d e).record = s.record := rfl
@[simp] theorem report_setEngine (d : Managed) (e : Engine) : (s.setEngine d e).report = s.report := rfl
@[simp] theorem slot_setEngine (d : Managed) (e : Engine) : (s.setEngine d e).slot = s.slot := rfl
@[simp] theorem lease_setEngine (d : Managed) (e : Engine) : (s.setEngine d e).lease = s.lease := rfl
@[simp] theorem handle_setEngine (d : Managed) (e : Engine) : (s.setEngine d e).handle = s.handle := rfl
@[simp] theorem named_setEngine (d : Managed) (e : Engine) : (s.setEngine d e).named = s.named := rfl
@[simp] theorem list_setEngine (d : Managed) (e : Engine) : (s.setEngine d e).list = s.list := rfl
@[simp] theorem window_setEngine (d : Managed) (e : Engine) : (s.setEngine d e).window = s.window := rfl
@[simp] theorem wake_setEngine (d : Managed) (e : Engine) : (s.setEngine d e).wake = s.wake := rfl
@[simp] theorem queue_setEngine (d : Managed) (e : Engine) : (s.setEngine d e).queue = s.queue := rfl
@[simp] theorem port_setEngine (d : Managed) (e : Engine) : (s.setEngine d e).port = s.port := rfl

theorem engine_setEngine (j : Managed) (d : Managed) (e : Engine) :
    (s.setEngine d e).engine j = if j = d then e else s.engine j := by
  simp [State.engine, State.setEngine, Vector.getElem_set, Fin.ext_iff, eq_comm]
@[simp] theorem engine_setEngine_self (d : Managed) (e : Engine) : (s.setEngine d e).engine d = e := by
  simp [engine_setEngine]
theorem engine_setEngine_ne {j d : Managed} (h : j ≠ d) (e : Engine) : (s.setEngine d e).engine j = s.engine j := by
  simp [engine_setEngine, h]

/-! ### setReport -/

@[simp] theorem partState_setReport (d : Managed) (r : Option Level) : (s.setReport d r).partState = s.partState := rfl
@[simp] theorem resetHeld_setReport (d : Managed) (r : Option Level) : (s.setReport d r).resetHeld = s.resetHeld := rfl
@[simp] theorem records_setReport (d : Managed) (r : Option Level) : (s.setReport d r).records = s.records := rfl
@[simp] theorem engines_setReport (d : Managed) (r : Option Level) : (s.setReport d r).engines = s.engines := rfl
@[simp] theorem slots_setReport (d : Managed) (r : Option Level) : (s.setReport d r).slots = s.slots := rfl
@[simp] theorem lists_setReport (d : Managed) (r : Option Level) : (s.setReport d r).lists = s.lists := rfl
@[simp] theorem freeUnits_setReport (d : Managed) (r : Option Level) : (s.setReport d r).freeUnits = s.freeUnits := rfl
@[simp] theorem rampQueue_setReport (d : Managed) (r : Option Level) : (s.setReport d r).rampQueue = s.rampQueue := rfl
@[simp] theorem windows_setReport (d : Managed) (r : Option Level) : (s.setReport d r).windows = s.windows := rfl
@[simp] theorem tapAwaits_setReport (d : Managed) (r : Option Level) : (s.setReport d r).tapAwaits = s.tapAwaits := rfl
@[simp] theorem wakes_setReport (d : Managed) (r : Option Level) : (s.setReport d r).wakes = s.wakes := rfl
@[simp] theorem queues_setReport (d : Managed) (r : Option Level) : (s.setReport d r).queues = s.queues := rfl
@[simp] theorem ports_setReport (d : Managed) (r : Option Level) : (s.setReport d r).ports = s.ports := rfl
@[simp] theorem pgood_setReport (d : Managed) (r : Option Level) : (s.setReport d r).pgood = s.pgood := rfl
@[simp] theorem ckok_setReport (d : Managed) (r : Option Level) : (s.setReport d r).ckok = s.ckok := rfl
@[simp] theorem lines_setReport (d : Managed) (r : Option Level) : (s.setReport d r).lines = s.lines := rfl
@[simp] theorem pinLog_setReport (d : Managed) (r : Option Level) : (s.setReport d r).pinLog = s.pinLog := rfl
@[simp] theorem pending_setReport (d : Managed) (r : Option Level) : (s.setReport d r).pending = s.pending := rfl
@[simp] theorem record_setReport (d : Managed) (r : Option Level) : (s.setReport d r).record = s.record := rfl
@[simp] theorem engine_setReport (d : Managed) (r : Option Level) : (s.setReport d r).engine = s.engine := rfl
@[simp] theorem slot_setReport (d : Managed) (r : Option Level) : (s.setReport d r).slot = s.slot := rfl
@[simp] theorem lease_setReport (d : Managed) (r : Option Level) : (s.setReport d r).lease = s.lease := rfl
@[simp] theorem handle_setReport (d : Managed) (r : Option Level) : (s.setReport d r).handle = s.handle := rfl
@[simp] theorem named_setReport (d : Managed) (r : Option Level) : (s.setReport d r).named = s.named := rfl
@[simp] theorem list_setReport (d : Managed) (r : Option Level) : (s.setReport d r).list = s.list := rfl
@[simp] theorem window_setReport (d : Managed) (r : Option Level) : (s.setReport d r).window = s.window := rfl
@[simp] theorem wake_setReport (d : Managed) (r : Option Level) : (s.setReport d r).wake = s.wake := rfl
@[simp] theorem queue_setReport (d : Managed) (r : Option Level) : (s.setReport d r).queue = s.queue := rfl
@[simp] theorem port_setReport (d : Managed) (r : Option Level) : (s.setReport d r).port = s.port := rfl

theorem report_setReport (j : Managed) (d : Managed) (r : Option Level) :
    (s.setReport d r).report j = if j = d then r else s.report j := by
  simp [State.report, State.setReport, Vector.getElem_set, Fin.ext_iff, eq_comm]
@[simp] theorem report_setReport_self (d : Managed) (r : Option Level) : (s.setReport d r).report d = r := by
  simp [report_setReport]
theorem report_setReport_ne {j d : Managed} (h : j ≠ d) (r : Option Level) : (s.setReport d r).report j = s.report j := by
  simp [report_setReport, h]

/-! ### setSlot -/

@[simp] theorem partState_setSlot (i : SlotId) (x : Slot) : (s.setSlot i x).partState = s.partState := rfl
@[simp] theorem resetHeld_setSlot (i : SlotId) (x : Slot) : (s.setSlot i x).resetHeld = s.resetHeld := rfl
@[simp] theorem records_setSlot (i : SlotId) (x : Slot) : (s.setSlot i x).records = s.records := rfl
@[simp] theorem engines_setSlot (i : SlotId) (x : Slot) : (s.setSlot i x).engines = s.engines := rfl
@[simp] theorem reports_setSlot (i : SlotId) (x : Slot) : (s.setSlot i x).reports = s.reports := rfl
@[simp] theorem lists_setSlot (i : SlotId) (x : Slot) : (s.setSlot i x).lists = s.lists := rfl
@[simp] theorem freeUnits_setSlot (i : SlotId) (x : Slot) : (s.setSlot i x).freeUnits = s.freeUnits := rfl
@[simp] theorem rampQueue_setSlot (i : SlotId) (x : Slot) : (s.setSlot i x).rampQueue = s.rampQueue := rfl
@[simp] theorem windows_setSlot (i : SlotId) (x : Slot) : (s.setSlot i x).windows = s.windows := rfl
@[simp] theorem tapAwaits_setSlot (i : SlotId) (x : Slot) : (s.setSlot i x).tapAwaits = s.tapAwaits := rfl
@[simp] theorem wakes_setSlot (i : SlotId) (x : Slot) : (s.setSlot i x).wakes = s.wakes := rfl
@[simp] theorem queues_setSlot (i : SlotId) (x : Slot) : (s.setSlot i x).queues = s.queues := rfl
@[simp] theorem ports_setSlot (i : SlotId) (x : Slot) : (s.setSlot i x).ports = s.ports := rfl
@[simp] theorem pgood_setSlot (i : SlotId) (x : Slot) : (s.setSlot i x).pgood = s.pgood := rfl
@[simp] theorem ckok_setSlot (i : SlotId) (x : Slot) : (s.setSlot i x).ckok = s.ckok := rfl
@[simp] theorem lines_setSlot (i : SlotId) (x : Slot) : (s.setSlot i x).lines = s.lines := rfl
@[simp] theorem pinLog_setSlot (i : SlotId) (x : Slot) : (s.setSlot i x).pinLog = s.pinLog := rfl
@[simp] theorem pending_setSlot (i : SlotId) (x : Slot) : (s.setSlot i x).pending = s.pending := rfl
@[simp] theorem record_setSlot (i : SlotId) (x : Slot) : (s.setSlot i x).record = s.record := rfl
@[simp] theorem engine_setSlot (i : SlotId) (x : Slot) : (s.setSlot i x).engine = s.engine := rfl
@[simp] theorem report_setSlot (i : SlotId) (x : Slot) : (s.setSlot i x).report = s.report := rfl
@[simp] theorem list_setSlot (i : SlotId) (x : Slot) : (s.setSlot i x).list = s.list := rfl
@[simp] theorem window_setSlot (i : SlotId) (x : Slot) : (s.setSlot i x).window = s.window := rfl
@[simp] theorem wake_setSlot (i : SlotId) (x : Slot) : (s.setSlot i x).wake = s.wake := rfl
@[simp] theorem queue_setSlot (i : SlotId) (x : Slot) : (s.setSlot i x).queue = s.queue := rfl
@[simp] theorem port_setSlot (i : SlotId) (x : Slot) : (s.setSlot i x).port = s.port := rfl

theorem slot_setSlot (j : SlotId) (i : SlotId) (x : Slot) :
    (s.setSlot i x).slot j = if j = i then x else s.slot j := by
  simp [State.slot, State.setSlot, Vector.getElem_set, Fin.ext_iff, eq_comm]
@[simp] theorem slot_setSlot_self (i : SlotId) (x : Slot) : (s.setSlot i x).slot i = x := by
  simp [slot_setSlot]
theorem slot_setSlot_ne {j i : SlotId} (h : j ≠ i) (x : Slot) : (s.setSlot i x).slot j = s.slot j := by
  simp [slot_setSlot, h]

/-! ### setList -/

@[simp] theorem partState_setList (d : Managed) (l : List SlotId) : (s.setList d l).partState = s.partState := rfl
@[simp] theorem resetHeld_setList (d : Managed) (l : List SlotId) : (s.setList d l).resetHeld = s.resetHeld := rfl
@[simp] theorem records_setList (d : Managed) (l : List SlotId) : (s.setList d l).records = s.records := rfl
@[simp] theorem engines_setList (d : Managed) (l : List SlotId) : (s.setList d l).engines = s.engines := rfl
@[simp] theorem reports_setList (d : Managed) (l : List SlotId) : (s.setList d l).reports = s.reports := rfl
@[simp] theorem slots_setList (d : Managed) (l : List SlotId) : (s.setList d l).slots = s.slots := rfl
@[simp] theorem freeUnits_setList (d : Managed) (l : List SlotId) : (s.setList d l).freeUnits = s.freeUnits := rfl
@[simp] theorem rampQueue_setList (d : Managed) (l : List SlotId) : (s.setList d l).rampQueue = s.rampQueue := rfl
@[simp] theorem windows_setList (d : Managed) (l : List SlotId) : (s.setList d l).windows = s.windows := rfl
@[simp] theorem tapAwaits_setList (d : Managed) (l : List SlotId) : (s.setList d l).tapAwaits = s.tapAwaits := rfl
@[simp] theorem wakes_setList (d : Managed) (l : List SlotId) : (s.setList d l).wakes = s.wakes := rfl
@[simp] theorem queues_setList (d : Managed) (l : List SlotId) : (s.setList d l).queues = s.queues := rfl
@[simp] theorem ports_setList (d : Managed) (l : List SlotId) : (s.setList d l).ports = s.ports := rfl
@[simp] theorem pgood_setList (d : Managed) (l : List SlotId) : (s.setList d l).pgood = s.pgood := rfl
@[simp] theorem ckok_setList (d : Managed) (l : List SlotId) : (s.setList d l).ckok = s.ckok := rfl
@[simp] theorem lines_setList (d : Managed) (l : List SlotId) : (s.setList d l).lines = s.lines := rfl
@[simp] theorem pinLog_setList (d : Managed) (l : List SlotId) : (s.setList d l).pinLog = s.pinLog := rfl
@[simp] theorem pending_setList (d : Managed) (l : List SlotId) : (s.setList d l).pending = s.pending := rfl
@[simp] theorem record_setList (d : Managed) (l : List SlotId) : (s.setList d l).record = s.record := rfl
@[simp] theorem engine_setList (d : Managed) (l : List SlotId) : (s.setList d l).engine = s.engine := rfl
@[simp] theorem report_setList (d : Managed) (l : List SlotId) : (s.setList d l).report = s.report := rfl
@[simp] theorem slot_setList (d : Managed) (l : List SlotId) : (s.setList d l).slot = s.slot := rfl
@[simp] theorem lease_setList (d : Managed) (l : List SlotId) : (s.setList d l).lease = s.lease := rfl
@[simp] theorem handle_setList (d : Managed) (l : List SlotId) : (s.setList d l).handle = s.handle := rfl
@[simp] theorem named_setList (d : Managed) (l : List SlotId) : (s.setList d l).named = s.named := rfl
@[simp] theorem window_setList (d : Managed) (l : List SlotId) : (s.setList d l).window = s.window := rfl
@[simp] theorem wake_setList (d : Managed) (l : List SlotId) : (s.setList d l).wake = s.wake := rfl
@[simp] theorem queue_setList (d : Managed) (l : List SlotId) : (s.setList d l).queue = s.queue := rfl
@[simp] theorem port_setList (d : Managed) (l : List SlotId) : (s.setList d l).port = s.port := rfl

theorem list_setList (j : Managed) (d : Managed) (l : List SlotId) :
    (s.setList d l).list j = if j = d then l else s.list j := by
  simp [State.list, State.setList, Vector.getElem_set, Fin.ext_iff, eq_comm]
@[simp] theorem list_setList_self (d : Managed) (l : List SlotId) : (s.setList d l).list d = l := by
  simp [list_setList]
theorem list_setList_ne {j d : Managed} (h : j ≠ d) (l : List SlotId) : (s.setList d l).list j = s.list j := by
  simp [list_setList, h]

/-! ### setWindow -/

@[simp] theorem partState_setWindow (w : WindowId) (x : Window) : (s.setWindow w x).partState = s.partState := rfl
@[simp] theorem resetHeld_setWindow (w : WindowId) (x : Window) : (s.setWindow w x).resetHeld = s.resetHeld := rfl
@[simp] theorem records_setWindow (w : WindowId) (x : Window) : (s.setWindow w x).records = s.records := rfl
@[simp] theorem engines_setWindow (w : WindowId) (x : Window) : (s.setWindow w x).engines = s.engines := rfl
@[simp] theorem reports_setWindow (w : WindowId) (x : Window) : (s.setWindow w x).reports = s.reports := rfl
@[simp] theorem slots_setWindow (w : WindowId) (x : Window) : (s.setWindow w x).slots = s.slots := rfl
@[simp] theorem lists_setWindow (w : WindowId) (x : Window) : (s.setWindow w x).lists = s.lists := rfl
@[simp] theorem freeUnits_setWindow (w : WindowId) (x : Window) : (s.setWindow w x).freeUnits = s.freeUnits := rfl
@[simp] theorem rampQueue_setWindow (w : WindowId) (x : Window) : (s.setWindow w x).rampQueue = s.rampQueue := rfl
@[simp] theorem tapAwaits_setWindow (w : WindowId) (x : Window) : (s.setWindow w x).tapAwaits = s.tapAwaits := rfl
@[simp] theorem wakes_setWindow (w : WindowId) (x : Window) : (s.setWindow w x).wakes = s.wakes := rfl
@[simp] theorem queues_setWindow (w : WindowId) (x : Window) : (s.setWindow w x).queues = s.queues := rfl
@[simp] theorem ports_setWindow (w : WindowId) (x : Window) : (s.setWindow w x).ports = s.ports := rfl
@[simp] theorem pgood_setWindow (w : WindowId) (x : Window) : (s.setWindow w x).pgood = s.pgood := rfl
@[simp] theorem ckok_setWindow (w : WindowId) (x : Window) : (s.setWindow w x).ckok = s.ckok := rfl
@[simp] theorem lines_setWindow (w : WindowId) (x : Window) : (s.setWindow w x).lines = s.lines := rfl
@[simp] theorem pinLog_setWindow (w : WindowId) (x : Window) : (s.setWindow w x).pinLog = s.pinLog := rfl
@[simp] theorem pending_setWindow (w : WindowId) (x : Window) : (s.setWindow w x).pending = s.pending := rfl
@[simp] theorem record_setWindow (w : WindowId) (x : Window) : (s.setWindow w x).record = s.record := rfl
@[simp] theorem engine_setWindow (w : WindowId) (x : Window) : (s.setWindow w x).engine = s.engine := rfl
@[simp] theorem report_setWindow (w : WindowId) (x : Window) : (s.setWindow w x).report = s.report := rfl
@[simp] theorem slot_setWindow (w : WindowId) (x : Window) : (s.setWindow w x).slot = s.slot := rfl
@[simp] theorem lease_setWindow (w : WindowId) (x : Window) : (s.setWindow w x).lease = s.lease := rfl
@[simp] theorem handle_setWindow (w : WindowId) (x : Window) : (s.setWindow w x).handle = s.handle := rfl
@[simp] theorem named_setWindow (w : WindowId) (x : Window) : (s.setWindow w x).named = s.named := rfl
@[simp] theorem list_setWindow (w : WindowId) (x : Window) : (s.setWindow w x).list = s.list := rfl
@[simp] theorem wake_setWindow (w : WindowId) (x : Window) : (s.setWindow w x).wake = s.wake := rfl
@[simp] theorem queue_setWindow (w : WindowId) (x : Window) : (s.setWindow w x).queue = s.queue := rfl
@[simp] theorem port_setWindow (w : WindowId) (x : Window) : (s.setWindow w x).port = s.port := rfl

theorem window_setWindow (j : WindowId) (w : WindowId) (x : Window) :
    (s.setWindow w x).window j = if j = w then x else s.window j := by
  simp [State.window, State.setWindow, Vector.getElem_set, Fin.ext_iff, eq_comm]
@[simp] theorem window_setWindow_self (w : WindowId) (x : Window) : (s.setWindow w x).window w = x := by
  simp [window_setWindow]
theorem window_setWindow_ne {j w : WindowId} (h : j ≠ w) (x : Window) : (s.setWindow w x).window j = s.window j := by
  simp [window_setWindow, h]

/-! ### setWake -/

@[simp] theorem partState_setWake (k : LineId) (x : WakeLine) : (s.setWake k x).partState = s.partState := rfl
@[simp] theorem resetHeld_setWake (k : LineId) (x : WakeLine) : (s.setWake k x).resetHeld = s.resetHeld := rfl
@[simp] theorem records_setWake (k : LineId) (x : WakeLine) : (s.setWake k x).records = s.records := rfl
@[simp] theorem engines_setWake (k : LineId) (x : WakeLine) : (s.setWake k x).engines = s.engines := rfl
@[simp] theorem reports_setWake (k : LineId) (x : WakeLine) : (s.setWake k x).reports = s.reports := rfl
@[simp] theorem slots_setWake (k : LineId) (x : WakeLine) : (s.setWake k x).slots = s.slots := rfl
@[simp] theorem lists_setWake (k : LineId) (x : WakeLine) : (s.setWake k x).lists = s.lists := rfl
@[simp] theorem freeUnits_setWake (k : LineId) (x : WakeLine) : (s.setWake k x).freeUnits = s.freeUnits := rfl
@[simp] theorem rampQueue_setWake (k : LineId) (x : WakeLine) : (s.setWake k x).rampQueue = s.rampQueue := rfl
@[simp] theorem windows_setWake (k : LineId) (x : WakeLine) : (s.setWake k x).windows = s.windows := rfl
@[simp] theorem tapAwaits_setWake (k : LineId) (x : WakeLine) : (s.setWake k x).tapAwaits = s.tapAwaits := rfl
@[simp] theorem queues_setWake (k : LineId) (x : WakeLine) : (s.setWake k x).queues = s.queues := rfl
@[simp] theorem ports_setWake (k : LineId) (x : WakeLine) : (s.setWake k x).ports = s.ports := rfl
@[simp] theorem pgood_setWake (k : LineId) (x : WakeLine) : (s.setWake k x).pgood = s.pgood := rfl
@[simp] theorem ckok_setWake (k : LineId) (x : WakeLine) : (s.setWake k x).ckok = s.ckok := rfl
@[simp] theorem lines_setWake (k : LineId) (x : WakeLine) : (s.setWake k x).lines = s.lines := rfl
@[simp] theorem pinLog_setWake (k : LineId) (x : WakeLine) : (s.setWake k x).pinLog = s.pinLog := rfl
@[simp] theorem pending_setWake (k : LineId) (x : WakeLine) : (s.setWake k x).pending = s.pending := rfl
@[simp] theorem record_setWake (k : LineId) (x : WakeLine) : (s.setWake k x).record = s.record := rfl
@[simp] theorem engine_setWake (k : LineId) (x : WakeLine) : (s.setWake k x).engine = s.engine := rfl
@[simp] theorem report_setWake (k : LineId) (x : WakeLine) : (s.setWake k x).report = s.report := rfl
@[simp] theorem slot_setWake (k : LineId) (x : WakeLine) : (s.setWake k x).slot = s.slot := rfl
@[simp] theorem lease_setWake (k : LineId) (x : WakeLine) : (s.setWake k x).lease = s.lease := rfl
@[simp] theorem handle_setWake (k : LineId) (x : WakeLine) : (s.setWake k x).handle = s.handle := rfl
@[simp] theorem named_setWake (k : LineId) (x : WakeLine) : (s.setWake k x).named = s.named := rfl
@[simp] theorem list_setWake (k : LineId) (x : WakeLine) : (s.setWake k x).list = s.list := rfl
@[simp] theorem window_setWake (k : LineId) (x : WakeLine) : (s.setWake k x).window = s.window := rfl
@[simp] theorem queue_setWake (k : LineId) (x : WakeLine) : (s.setWake k x).queue = s.queue := rfl
@[simp] theorem port_setWake (k : LineId) (x : WakeLine) : (s.setWake k x).port = s.port := rfl

theorem wake_setWake (j : LineId) (k : LineId) (x : WakeLine) :
    (s.setWake k x).wake j = if j = k then x else s.wake j := by
  simp [State.wake, State.setWake, Vector.getElem_set, Fin.ext_iff, eq_comm]
@[simp] theorem wake_setWake_self (k : LineId) (x : WakeLine) : (s.setWake k x).wake k = x := by
  simp [wake_setWake]
theorem wake_setWake_ne {j k : LineId} (h : j ≠ k) (x : WakeLine) : (s.setWake k x).wake j = s.wake j := by
  simp [wake_setWake, h]

/-! ### setQueue -/

@[simp] theorem partState_setQueue (a : Agent) (q : List Notice) : (s.setQueue a q).partState = s.partState := rfl
@[simp] theorem resetHeld_setQueue (a : Agent) (q : List Notice) : (s.setQueue a q).resetHeld = s.resetHeld := rfl
@[simp] theorem records_setQueue (a : Agent) (q : List Notice) : (s.setQueue a q).records = s.records := rfl
@[simp] theorem engines_setQueue (a : Agent) (q : List Notice) : (s.setQueue a q).engines = s.engines := rfl
@[simp] theorem reports_setQueue (a : Agent) (q : List Notice) : (s.setQueue a q).reports = s.reports := rfl
@[simp] theorem slots_setQueue (a : Agent) (q : List Notice) : (s.setQueue a q).slots = s.slots := rfl
@[simp] theorem lists_setQueue (a : Agent) (q : List Notice) : (s.setQueue a q).lists = s.lists := rfl
@[simp] theorem freeUnits_setQueue (a : Agent) (q : List Notice) : (s.setQueue a q).freeUnits = s.freeUnits := rfl
@[simp] theorem rampQueue_setQueue (a : Agent) (q : List Notice) : (s.setQueue a q).rampQueue = s.rampQueue := rfl
@[simp] theorem windows_setQueue (a : Agent) (q : List Notice) : (s.setQueue a q).windows = s.windows := rfl
@[simp] theorem tapAwaits_setQueue (a : Agent) (q : List Notice) : (s.setQueue a q).tapAwaits = s.tapAwaits := rfl
@[simp] theorem wakes_setQueue (a : Agent) (q : List Notice) : (s.setQueue a q).wakes = s.wakes := rfl
@[simp] theorem ports_setQueue (a : Agent) (q : List Notice) : (s.setQueue a q).ports = s.ports := rfl
@[simp] theorem pgood_setQueue (a : Agent) (q : List Notice) : (s.setQueue a q).pgood = s.pgood := rfl
@[simp] theorem ckok_setQueue (a : Agent) (q : List Notice) : (s.setQueue a q).ckok = s.ckok := rfl
@[simp] theorem lines_setQueue (a : Agent) (q : List Notice) : (s.setQueue a q).lines = s.lines := rfl
@[simp] theorem pinLog_setQueue (a : Agent) (q : List Notice) : (s.setQueue a q).pinLog = s.pinLog := rfl
@[simp] theorem pending_setQueue (a : Agent) (q : List Notice) : (s.setQueue a q).pending = s.pending := rfl
@[simp] theorem record_setQueue (a : Agent) (q : List Notice) : (s.setQueue a q).record = s.record := rfl
@[simp] theorem engine_setQueue (a : Agent) (q : List Notice) : (s.setQueue a q).engine = s.engine := rfl
@[simp] theorem report_setQueue (a : Agent) (q : List Notice) : (s.setQueue a q).report = s.report := rfl
@[simp] theorem slot_setQueue (a : Agent) (q : List Notice) : (s.setQueue a q).slot = s.slot := rfl
@[simp] theorem lease_setQueue (a : Agent) (q : List Notice) : (s.setQueue a q).lease = s.lease := rfl
@[simp] theorem handle_setQueue (a : Agent) (q : List Notice) : (s.setQueue a q).handle = s.handle := rfl
@[simp] theorem named_setQueue (a : Agent) (q : List Notice) : (s.setQueue a q).named = s.named := rfl
@[simp] theorem list_setQueue (a : Agent) (q : List Notice) : (s.setQueue a q).list = s.list := rfl
@[simp] theorem window_setQueue (a : Agent) (q : List Notice) : (s.setQueue a q).window = s.window := rfl
@[simp] theorem wake_setQueue (a : Agent) (q : List Notice) : (s.setQueue a q).wake = s.wake := rfl
@[simp] theorem port_setQueue (a : Agent) (q : List Notice) : (s.setQueue a q).port = s.port := rfl

theorem queue_setQueue (j : Agent) (a : Agent) (q : List Notice) :
    (s.setQueue a q).queue j = if j = a then q else s.queue j := by
  simp [State.queue, State.setQueue, Vector.getElem_set, Fin.ext_iff, eq_comm]
@[simp] theorem queue_setQueue_self (a : Agent) (q : List Notice) : (s.setQueue a q).queue a = q := by
  simp [queue_setQueue]
theorem queue_setQueue_ne {j a : Agent} (h : j ≠ a) (q : List Notice) : (s.setQueue a q).queue j = s.queue j := by
  simp [queue_setQueue, h]

/-! ### setPort -/

@[simp] theorem partState_setPort (p : Agent) (x : Port) : (s.setPort p x).partState = s.partState := rfl
@[simp] theorem resetHeld_setPort (p : Agent) (x : Port) : (s.setPort p x).resetHeld = s.resetHeld := rfl
@[simp] theorem records_setPort (p : Agent) (x : Port) : (s.setPort p x).records = s.records := rfl
@[simp] theorem engines_setPort (p : Agent) (x : Port) : (s.setPort p x).engines = s.engines := rfl
@[simp] theorem reports_setPort (p : Agent) (x : Port) : (s.setPort p x).reports = s.reports := rfl
@[simp] theorem slots_setPort (p : Agent) (x : Port) : (s.setPort p x).slots = s.slots := rfl
@[simp] theorem lists_setPort (p : Agent) (x : Port) : (s.setPort p x).lists = s.lists := rfl
@[simp] theorem freeUnits_setPort (p : Agent) (x : Port) : (s.setPort p x).freeUnits = s.freeUnits := rfl
@[simp] theorem rampQueue_setPort (p : Agent) (x : Port) : (s.setPort p x).rampQueue = s.rampQueue := rfl
@[simp] theorem windows_setPort (p : Agent) (x : Port) : (s.setPort p x).windows = s.windows := rfl
@[simp] theorem tapAwaits_setPort (p : Agent) (x : Port) : (s.setPort p x).tapAwaits = s.tapAwaits := rfl
@[simp] theorem wakes_setPort (p : Agent) (x : Port) : (s.setPort p x).wakes = s.wakes := rfl
@[simp] theorem queues_setPort (p : Agent) (x : Port) : (s.setPort p x).queues = s.queues := rfl
@[simp] theorem pgood_setPort (p : Agent) (x : Port) : (s.setPort p x).pgood = s.pgood := rfl
@[simp] theorem ckok_setPort (p : Agent) (x : Port) : (s.setPort p x).ckok = s.ckok := rfl
@[simp] theorem lines_setPort (p : Agent) (x : Port) : (s.setPort p x).lines = s.lines := rfl
@[simp] theorem pinLog_setPort (p : Agent) (x : Port) : (s.setPort p x).pinLog = s.pinLog := rfl
@[simp] theorem pending_setPort (p : Agent) (x : Port) : (s.setPort p x).pending = s.pending := rfl
@[simp] theorem record_setPort (p : Agent) (x : Port) : (s.setPort p x).record = s.record := rfl
@[simp] theorem engine_setPort (p : Agent) (x : Port) : (s.setPort p x).engine = s.engine := rfl
@[simp] theorem report_setPort (p : Agent) (x : Port) : (s.setPort p x).report = s.report := rfl
@[simp] theorem slot_setPort (p : Agent) (x : Port) : (s.setPort p x).slot = s.slot := rfl
@[simp] theorem lease_setPort (p : Agent) (x : Port) : (s.setPort p x).lease = s.lease := rfl
@[simp] theorem handle_setPort (p : Agent) (x : Port) : (s.setPort p x).handle = s.handle := rfl
@[simp] theorem named_setPort (p : Agent) (x : Port) : (s.setPort p x).named = s.named := rfl
@[simp] theorem list_setPort (p : Agent) (x : Port) : (s.setPort p x).list = s.list := rfl
@[simp] theorem window_setPort (p : Agent) (x : Port) : (s.setPort p x).window = s.window := rfl
@[simp] theorem wake_setPort (p : Agent) (x : Port) : (s.setPort p x).wake = s.wake := rfl
@[simp] theorem queue_setPort (p : Agent) (x : Port) : (s.setPort p x).queue = s.queue := rfl

theorem port_setPort (j : Agent) (p : Agent) (x : Port) :
    (s.setPort p x).port j = if j = p then x else s.port j := by
  simp [State.port, State.setPort, Vector.getElem_set, Fin.ext_iff, eq_comm]
@[simp] theorem port_setPort_self (p : Agent) (x : Port) : (s.setPort p x).port p = x := by
  simp [port_setPort]
theorem port_setPort_ne {j p : Agent} (h : j ≠ p) (x : Port) : (s.setPort p x).port j = s.port j := by
  simp [port_setPort, h]

/-! ### setLine -/

@[simp] theorem partState_setLine (k : LineId) (b : Bool) : (s.setLine k b).partState = s.partState := rfl
@[simp] theorem resetHeld_setLine (k : LineId) (b : Bool) : (s.setLine k b).resetHeld = s.resetHeld := rfl
@[simp] theorem records_setLine (k : LineId) (b : Bool) : (s.setLine k b).records = s.records := rfl
@[simp] theorem engines_setLine (k : LineId) (b : Bool) : (s.setLine k b).engines = s.engines := rfl
@[simp] theorem reports_setLine (k : LineId) (b : Bool) : (s.setLine k b).reports = s.reports := rfl
@[simp] theorem slots_setLine (k : LineId) (b : Bool) : (s.setLine k b).slots = s.slots := rfl
@[simp] theorem lists_setLine (k : LineId) (b : Bool) : (s.setLine k b).lists = s.lists := rfl
@[simp] theorem freeUnits_setLine (k : LineId) (b : Bool) : (s.setLine k b).freeUnits = s.freeUnits := rfl
@[simp] theorem rampQueue_setLine (k : LineId) (b : Bool) : (s.setLine k b).rampQueue = s.rampQueue := rfl
@[simp] theorem windows_setLine (k : LineId) (b : Bool) : (s.setLine k b).windows = s.windows := rfl
@[simp] theorem tapAwaits_setLine (k : LineId) (b : Bool) : (s.setLine k b).tapAwaits = s.tapAwaits := rfl
@[simp] theorem wakes_setLine (k : LineId) (b : Bool) : (s.setLine k b).wakes = s.wakes := rfl
@[simp] theorem queues_setLine (k : LineId) (b : Bool) : (s.setLine k b).queues = s.queues := rfl
@[simp] theorem ports_setLine (k : LineId) (b : Bool) : (s.setLine k b).ports = s.ports := rfl
@[simp] theorem pgood_setLine (k : LineId) (b : Bool) : (s.setLine k b).pgood = s.pgood := rfl
@[simp] theorem ckok_setLine (k : LineId) (b : Bool) : (s.setLine k b).ckok = s.ckok := rfl
@[simp] theorem pinLog_setLine (k : LineId) (b : Bool) : (s.setLine k b).pinLog = s.pinLog := rfl
@[simp] theorem pending_setLine (k : LineId) (b : Bool) : (s.setLine k b).pending = s.pending := rfl
@[simp] theorem record_setLine (k : LineId) (b : Bool) : (s.setLine k b).record = s.record := rfl
@[simp] theorem engine_setLine (k : LineId) (b : Bool) : (s.setLine k b).engine = s.engine := rfl
@[simp] theorem report_setLine (k : LineId) (b : Bool) : (s.setLine k b).report = s.report := rfl
@[simp] theorem slot_setLine (k : LineId) (b : Bool) : (s.setLine k b).slot = s.slot := rfl
@[simp] theorem lease_setLine (k : LineId) (b : Bool) : (s.setLine k b).lease = s.lease := rfl
@[simp] theorem handle_setLine (k : LineId) (b : Bool) : (s.setLine k b).handle = s.handle := rfl
@[simp] theorem named_setLine (k : LineId) (b : Bool) : (s.setLine k b).named = s.named := rfl
@[simp] theorem list_setLine (k : LineId) (b : Bool) : (s.setLine k b).list = s.list := rfl
@[simp] theorem window_setLine (k : LineId) (b : Bool) : (s.setLine k b).window = s.window := rfl
@[simp] theorem wake_setLine (k : LineId) (b : Bool) : (s.setLine k b).wake = s.wake := rfl
@[simp] theorem queue_setLine (k : LineId) (b : Bool) : (s.setLine k b).queue = s.queue := rfl
@[simp] theorem port_setLine (k : LineId) (b : Bool) : (s.setLine k b).port = s.port := rfl

/-! ### setPgood -/

@[simp] theorem partState_setPgood (d : Managed) (b : Bool) : (s.setPgood d b).partState = s.partState := rfl
@[simp] theorem resetHeld_setPgood (d : Managed) (b : Bool) : (s.setPgood d b).resetHeld = s.resetHeld := rfl
@[simp] theorem records_setPgood (d : Managed) (b : Bool) : (s.setPgood d b).records = s.records := rfl
@[simp] theorem engines_setPgood (d : Managed) (b : Bool) : (s.setPgood d b).engines = s.engines := rfl
@[simp] theorem reports_setPgood (d : Managed) (b : Bool) : (s.setPgood d b).reports = s.reports := rfl
@[simp] theorem slots_setPgood (d : Managed) (b : Bool) : (s.setPgood d b).slots = s.slots := rfl
@[simp] theorem lists_setPgood (d : Managed) (b : Bool) : (s.setPgood d b).lists = s.lists := rfl
@[simp] theorem freeUnits_setPgood (d : Managed) (b : Bool) : (s.setPgood d b).freeUnits = s.freeUnits := rfl
@[simp] theorem rampQueue_setPgood (d : Managed) (b : Bool) : (s.setPgood d b).rampQueue = s.rampQueue := rfl
@[simp] theorem windows_setPgood (d : Managed) (b : Bool) : (s.setPgood d b).windows = s.windows := rfl
@[simp] theorem tapAwaits_setPgood (d : Managed) (b : Bool) : (s.setPgood d b).tapAwaits = s.tapAwaits := rfl
@[simp] theorem wakes_setPgood (d : Managed) (b : Bool) : (s.setPgood d b).wakes = s.wakes := rfl
@[simp] theorem queues_setPgood (d : Managed) (b : Bool) : (s.setPgood d b).queues = s.queues := rfl
@[simp] theorem ports_setPgood (d : Managed) (b : Bool) : (s.setPgood d b).ports = s.ports := rfl
@[simp] theorem ckok_setPgood (d : Managed) (b : Bool) : (s.setPgood d b).ckok = s.ckok := rfl
@[simp] theorem lines_setPgood (d : Managed) (b : Bool) : (s.setPgood d b).lines = s.lines := rfl
@[simp] theorem pinLog_setPgood (d : Managed) (b : Bool) : (s.setPgood d b).pinLog = s.pinLog := rfl
@[simp] theorem pending_setPgood (d : Managed) (b : Bool) : (s.setPgood d b).pending = s.pending := rfl
@[simp] theorem record_setPgood (d : Managed) (b : Bool) : (s.setPgood d b).record = s.record := rfl
@[simp] theorem engine_setPgood (d : Managed) (b : Bool) : (s.setPgood d b).engine = s.engine := rfl
@[simp] theorem report_setPgood (d : Managed) (b : Bool) : (s.setPgood d b).report = s.report := rfl
@[simp] theorem slot_setPgood (d : Managed) (b : Bool) : (s.setPgood d b).slot = s.slot := rfl
@[simp] theorem lease_setPgood (d : Managed) (b : Bool) : (s.setPgood d b).lease = s.lease := rfl
@[simp] theorem handle_setPgood (d : Managed) (b : Bool) : (s.setPgood d b).handle = s.handle := rfl
@[simp] theorem named_setPgood (d : Managed) (b : Bool) : (s.setPgood d b).named = s.named := rfl
@[simp] theorem list_setPgood (d : Managed) (b : Bool) : (s.setPgood d b).list = s.list := rfl
@[simp] theorem window_setPgood (d : Managed) (b : Bool) : (s.setPgood d b).window = s.window := rfl
@[simp] theorem wake_setPgood (d : Managed) (b : Bool) : (s.setPgood d b).wake = s.wake := rfl
@[simp] theorem queue_setPgood (d : Managed) (b : Bool) : (s.setPgood d b).queue = s.queue := rfl
@[simp] theorem port_setPgood (d : Managed) (b : Bool) : (s.setPgood d b).port = s.port := rfl

/-! ### setCkok -/

@[simp] theorem partState_setCkok (d : Managed) (b : Bool) : (s.setCkok d b).partState = s.partState := rfl
@[simp] theorem resetHeld_setCkok (d : Managed) (b : Bool) : (s.setCkok d b).resetHeld = s.resetHeld := rfl
@[simp] theorem records_setCkok (d : Managed) (b : Bool) : (s.setCkok d b).records = s.records := rfl
@[simp] theorem engines_setCkok (d : Managed) (b : Bool) : (s.setCkok d b).engines = s.engines := rfl
@[simp] theorem reports_setCkok (d : Managed) (b : Bool) : (s.setCkok d b).reports = s.reports := rfl
@[simp] theorem slots_setCkok (d : Managed) (b : Bool) : (s.setCkok d b).slots = s.slots := rfl
@[simp] theorem lists_setCkok (d : Managed) (b : Bool) : (s.setCkok d b).lists = s.lists := rfl
@[simp] theorem freeUnits_setCkok (d : Managed) (b : Bool) : (s.setCkok d b).freeUnits = s.freeUnits := rfl
@[simp] theorem rampQueue_setCkok (d : Managed) (b : Bool) : (s.setCkok d b).rampQueue = s.rampQueue := rfl
@[simp] theorem windows_setCkok (d : Managed) (b : Bool) : (s.setCkok d b).windows = s.windows := rfl
@[simp] theorem tapAwaits_setCkok (d : Managed) (b : Bool) : (s.setCkok d b).tapAwaits = s.tapAwaits := rfl
@[simp] theorem wakes_setCkok (d : Managed) (b : Bool) : (s.setCkok d b).wakes = s.wakes := rfl
@[simp] theorem queues_setCkok (d : Managed) (b : Bool) : (s.setCkok d b).queues = s.queues := rfl
@[simp] theorem ports_setCkok (d : Managed) (b : Bool) : (s.setCkok d b).ports = s.ports := rfl
@[simp] theorem pgood_setCkok (d : Managed) (b : Bool) : (s.setCkok d b).pgood = s.pgood := rfl
@[simp] theorem lines_setCkok (d : Managed) (b : Bool) : (s.setCkok d b).lines = s.lines := rfl
@[simp] theorem pinLog_setCkok (d : Managed) (b : Bool) : (s.setCkok d b).pinLog = s.pinLog := rfl
@[simp] theorem pending_setCkok (d : Managed) (b : Bool) : (s.setCkok d b).pending = s.pending := rfl
@[simp] theorem record_setCkok (d : Managed) (b : Bool) : (s.setCkok d b).record = s.record := rfl
@[simp] theorem engine_setCkok (d : Managed) (b : Bool) : (s.setCkok d b).engine = s.engine := rfl
@[simp] theorem report_setCkok (d : Managed) (b : Bool) : (s.setCkok d b).report = s.report := rfl
@[simp] theorem slot_setCkok (d : Managed) (b : Bool) : (s.setCkok d b).slot = s.slot := rfl
@[simp] theorem lease_setCkok (d : Managed) (b : Bool) : (s.setCkok d b).lease = s.lease := rfl
@[simp] theorem handle_setCkok (d : Managed) (b : Bool) : (s.setCkok d b).handle = s.handle := rfl
@[simp] theorem named_setCkok (d : Managed) (b : Bool) : (s.setCkok d b).named = s.named := rfl
@[simp] theorem list_setCkok (d : Managed) (b : Bool) : (s.setCkok d b).list = s.list := rfl
@[simp] theorem window_setCkok (d : Managed) (b : Bool) : (s.setCkok d b).window = s.window := rfl
@[simp] theorem wake_setCkok (d : Managed) (b : Bool) : (s.setCkok d b).wake = s.wake := rfl
@[simp] theorem queue_setCkok (d : Managed) (b : Bool) : (s.setCkok d b).queue = s.queue := rfl
@[simp] theorem port_setCkok (d : Managed) (b : Bool) : (s.setCkok d b).port = s.port := rfl

end Sys2Proof.Machine
end

