-- ==== Sys2Proof/Laws/Engines.lean ====
section
/-! SUPPORT. What each shared operation of the engines may touch: an engine operation changes engines, reports, free
units and the ramp queue, and nothing else. -/

namespace Sys2Proof.Machine

/-- From s to t only engines, reports, free units and the ramp queue may differ. -/
def engineSide (s t : State) : Prop :=
  ∃ engines reports freeUnits rampQueue,
    t = { s with engines := engines, reports := reports, freeUnits := freeUnits, rampQueue := rampQueue }

theorem engineSide.refl (s : State) : engineSide s s := ⟨_, _, _, _, rfl⟩

theorem engineSide.trans {s t u : State} (h : engineSide s t) (k : engineSide t u) : engineSide s u := by
  obtain ⟨_, _, _, _, rfl⟩ := h
  obtain ⟨_, _, _, _, rfl⟩ := k
  exact ⟨_, _, _, _, rfl⟩

/-- A fold of operations that each keep to a reflexive and transitive relation keeps to it. -/
theorem foldl_relation {α : Type} (rel : State → State → Prop) (refl : ∀ s, rel s s)
    (trans : ∀ s t u, rel s t → rel t u → rel s u) (f : State → α → State) (each : ∀ s a, rel s (f s a)) (l : List α)
    (s : State) : rel s (l.foldl f s) := by
  induction l generalizing s with
  | nil => exact refl s
  | cons a l ih => exact trans _ _ _ (each s a) (ih (f s a))

theorem engineSide.foldl {α : Type} (f : State → α → State) (each : ∀ s a, engineSide s (f s a)) (l : List α)
    (s : State) : engineSide s (l.foldl f s) :=
  foldl_relation engineSide engineSide.refl (fun _ _ _ h k => h.trans k) f each l s

/-! ### The operations -/

theorem engineSide_moveEngine (d : Managed) (st : EngineState) (n : Option Nat) (s : State) :
    engineSide s (s.moveEngine d st n) := ⟨_, _, _, _, rfl⟩

theorem engineSide_enterQueue (d : Managed) (s : State) : engineSide s (enterQueue d s) := ⟨_, _, _, _, rfl⟩

theorem engineSide_withdraw (d : Managed) (s : State) : engineSide s (withdraw d s) := ⟨_, _, _, _, rfl⟩

theorem engineSide_returnWeight (d : Managed) (s : State) : engineSide s (returnWeight d s) := ⟨_, _, _, _, rfl⟩

theorem engineSide_releaseChild (p : Managed) (s : State) (c : Managed × Level) : engineSide s (releaseChild p s c) := by
  unfold releaseChild
  split
  · exact engineSide_enterQueue _ _
  · exact engineSide.refl _

theorem engineSide_enterLevel (d : Managed) (level : Level) (s : State) : engineSide s (enterLevel d level s) :=
  engineSide.trans (t := (s.moveEngine d level.engineState none).setReport d (some level)) ⟨_, _, _, _, rfl⟩
    (engineSide.foldl _ (engineSide_releaseChild d) _ _)

theorem engineSide_beginRise (d : Managed) (s : State) : engineSide s (beginRise d s) := by
  have waiting := engineSide_moveEngine d .waitParent none s
  unfold beginRise
  split
  · split
    · exact waiting.trans (engineSide_enterQueue _ _)
    · exact waiting
  · exact waiting

theorem engineSide_beginStep (arrive : Level → State → State) (each : ∀ level s, engineSide s (arrive level s))
    (d : Managed) (level : Level) (s : State) : engineSide s (beginStep arrive d level s) := by
  unfold beginStep
  repeat' split
  all_goals first
    | exact engineSide.refl _
    | exact engineSide_beginRise _ _
    | exact each _ _

theorem engineSide_arriveWithin (n : Nat) (d : Managed) (level : Level) (s : State) :
    engineSide s (arriveWithin n d level s) := by
  induction n generalizing level s with
  | zero => exact engineSide_enterLevel _ _ _
  | succ n ih => exact (engineSide_enterLevel _ _ _).trans (engineSide_beginStep _ ih _ _ _)

/-- R52: an arrival, its releases and the steps it goes on to, touch engines, reports, free units and the ramp queue. -/
theorem engineSide_arrive (d : Managed) (level : Level) (s : State) : engineSide s (arrive d level s) :=
  engineSide_arriveWithin _ _ _ _

theorem engineSide_endSettle (d : Managed) (s : State) : engineSide s (endSettle d s) :=
  (engineSide_returnWeight d s).trans (engineSide_arrive _ _ _)

theorem engineSide_seePgood (d : Managed) (s : State) : engineSide s (seePgood d s) := by
  unfold seePgood
  repeat' split
  · exact engineSide_endSettle _ _
  · exact engineSide_moveEngine _ _ _ _
  · exact engineSide.refl _

theorem engineSide_enterRailUp (d : Managed) (s : State) : engineSide s (enterRailUp d s) := by
  have rising := engineSide_moveEngine d .railUp ((s.record d).map DomainRecord.pgoodTimeout) s
  unfold enterRailUp
  dsimp only
  split
  · exact rising.trans (engineSide_seePgood _ _)
  · exact rising

theorem engineSide_takeStep (d : Managed) (s : State) : engineSide s (takeStep d s) := by
  have step : ∀ level, engineSide s (beginStep (arrive d) d level s) := fun level =>
    engineSide_beginStep _ (engineSide_arrive d) _ _ _
  unfold takeStep
  split
  case h_5 => split <;> first | exact engineSide_arrive _ _ _ | exact engineSide.refl _
  case h_6 =>
    split
    · exact (engineSide_withdraw _ _).trans (engineSide_arrive _ _ _)
    · exact engineSide.refl _
  all_goals first | exact step _ | exact engineSide.refl _

theorem engineSide_grantHead (d : Managed) (rest : List Managed) (s : State) : engineSide s (grantHead d rest s) :=
  engineSide.trans (t := { s with rampQueue := rest, freeUnits := s.freeUnits - s.weight d }) ⟨_, _, _, _, rfl⟩
    (engineSide_enterRailUp _ _)

theorem engineSide_failEngine (d : Managed) (cause : FaultCause) (s : State) : engineSide s (failEngine d cause s) :=
  ⟨_, _, _, _, rfl⟩

theorem engineSide_cutEngine (s : State) (e : Managed) : engineSide s (cutEngine s e) := by
  unfold cutEngine
  split
  case h_3 => exact (engineSide_withdraw _ _).trans (engineSide_arrive _ _ _)
  all_goals first
    | exact engineSide.refl _
    | exact engineSide_arrive _ _ _

/-- R83, R84: failing and cutting touch engines, reports, free units and the ramp queue. -/
theorem engineSide_cutAll (d : Managed) (cause : FaultCause) (s : State) :
    engineSide s ((s.descendants d).foldl cutEngine (failEngine d cause s)) :=
  (engineSide_failEngine d cause s).trans (engineSide.foldl _ engineSide_cutEngine _ _)

theorem engineSide_completeDrain (d : Managed) (e : Engine) (s : State) : engineSide s (s.setEngine d e) :=
  ⟨_, _, _, _, rfl⟩

/-! ### The end of an event -/

/-- One line's record does not bear on another line's detector. -/
theorem refreshDetector_setWake {j k : LineId} (h : k ≠ j) (w : WakeLine) (s : State) :
    refreshDetector (s.setWake j w) k = refreshDetector s k := by
  unfold refreshDetector State.detectorActive
  rw [wake_setWake_ne _ h]
  rfl

theorem foldl_refreshDetector {l : List LineId} (nodup : l.Nodup) (s : State) :
    l.foldl (fun t k => t.setWake k (refreshDetector t k)) s =
      { s with wakes := Vector.ofFn fun k => if k ∈ l then refreshDetector s k else s.wake k } := by
  induction l generalizing s with
  | nil =>
    have : (Vector.ofFn fun k => s.wake k) = s.wakes := by ext i h; simp [State.wake]
    simp [this]
  | cons j l ih =>
    obtain ⟨absent, nodup⟩ := List.nodup_cons.1 nodup
    have : (Vector.ofFn fun k => if k ∈ l then refreshDetector (s.setWake j (refreshDetector s j)) k
        else (s.setWake j (refreshDetector s j)).wake k) =
        Vector.ofFn fun k => if k ∈ j :: l then refreshDetector s k else s.wake k := by
      congr 1
      funext k
      by_cases h : k = j
      · subst h; simp [absent]
      · simp [h, refreshDetector_setWake h, wake_setWake_ne _ h]
    rw [List.foldl_cons, ih nodup, this]
    rfl

/-- R113, R114: every line's detector is refreshed as the state stands, and nothing else changes. -/
theorem refreshDetectors_eq (s : State) :
    refreshDetectors s = { s with wakes := Vector.ofFn (refreshDetector s) } := by
  have all : ∀ k : LineId, k ∈ allLines := by decide
  rw [refreshDetectors, foldl_refreshDetector (by decide)]
  simp only [all, if_true]

/-- R182: the end of STOPPING changes the part state alone. -/
theorem endStopping_eq (s : State) :
    endStopping s = { s with partState := if s.partState = .stopping ∧ s.allDown = true then .setup else s.partState } := by
  unfold endStopping
  split <;> rfl

/-- R50: the pin changes are those of engines and records. -/
theorem pinChanges_congr {order : List Managed} {old new new' : State} (engines : new.engines = new'.engines)
    (records : new.records = new'.records) : pinChanges order old new = pinChanges order old new' := by
  have : new.outputs = new'.outputs := by
    funext d
    simp only [State.outputs, State.engine, State.record, engines, records]
  simp only [pinChanges, this]

/-- R50, R113, R182: what every event of the engines ends with changes the part state, the baselines and the pin log. -/
theorem closeEvent_eq (order : List Managed) (old new : State) :
    closeEvent order old new = { new with
      partState := if new.partState = .stopping ∧ new.allDown = true then .setup else new.partState
      wakes := Vector.ofFn (refreshDetector (endStopping new))
      pinLog := new.pinLog ++ pinChanges order old new } := by
  rw [closeEvent, refreshDetectors_eq, logPins, pinChanges_congr (new' := new)] <;>
    simp only [endStopping_eq]

/-- R76: a chain of grants changes engines, reports, free units, the ramp queue and the pin log. -/
theorem grantChain_eq (n : Nat) (s : State) : ∃ engines reports freeUnits rampQueue pinLog,
    grantChain n s = { s with
      engines := engines, reports := reports, freeUnits := freeUnits, rampQueue := rampQueue, pinLog := pinLog } := by
  induction n generalizing s with
  | zero => exact ⟨_, _, _, _, _, rfl⟩
  | succ n ih =>
    unfold grantChain
    split
    · rename_i d rest _
      split
      · obtain ⟨_, _, _, _, h⟩ := engineSide_grantHead d rest s
        obtain ⟨_, _, _, _, _, k⟩ := ih (logPins [d] s (grantHead d rest s))
        rw [k, logPins, h]
        exact ⟨_, _, _, _, _, rfl⟩
      · exact ⟨_, _, _, _, _, rfl⟩
    · exact ⟨_, _, _, _, _, rfl⟩

end Sys2Proof.Machine
end

