-- ==== Sys2Proof/Laws/Leases.lean ====
section
/-! SUPPORT. What each shared operation of the lease table may touch, and what the ending, freeing and making of one
lease leave. -/

namespace Sys2Proof.Machine

/-- From s to t only slots, lists, windows, queues and the links of the wake records may differ. -/
def leaseSide (s t : State) : Prop :=
  (∃ slots lists windows wakes queues,
    t = { s with slots := slots, lists := lists, windows := windows, wakes := wakes, queues := queues }) ∧
  ∀ k, t.wake k = { s.wake k with link := (t.wake k).link }

theorem leaseSide.refl (s : State) : leaseSide s s := ⟨⟨_, _, _, _, _, rfl⟩, fun _ => rfl⟩

theorem leaseSide.trans {s t u : State} (h : leaseSide s t) (k : leaseSide t u) : leaseSide s u := by
  refine ⟨?_, fun j => ?_⟩
  · obtain ⟨⟨_, _, _, _, _, rfl⟩, _⟩ := h
    obtain ⟨⟨_, _, _, _, _, rfl⟩, _⟩ := k
    exact ⟨_, _, _, _, _, rfl⟩
  · rw [k.2 j, h.2 j]

theorem leaseSide.foldl {α : Type} (f : State → α → State) (each : ∀ s a, leaseSide s (f s a)) (l : List α) (s : State) :
    leaseSide s (l.foldl f s) :=
  foldl_relation leaseSide leaseSide.refl (fun _ _ _ h k => h.trans k) f each l s

/-- Writes that leave the wake records alone. -/
theorem leaseSide_of_eq {s t : State}
    (h : ∃ slots lists windows queues, t = { s with slots := slots, lists := lists, windows := windows, queues := queues }) :
    leaseSide s t := by
  obtain ⟨_, _, _, _, rfl⟩ := h
  exact ⟨⟨_, _, _, _, _, rfl⟩, fun _ => rfl⟩

/-! ### The operations -/

theorem leaseSide_setLease (i : SlotId) (l : Lease) (s : State) : leaseSide s (s.setLease i l) :=
  leaseSide_of_eq ⟨_, _, _, _, rfl⟩

theorem leaseSide_post (a : Agent) (n : Notice) (s : State) : leaseSide s (s.post a n) :=
  leaseSide_of_eq ⟨_, _, _, _, rfl⟩

theorem leaseSide_purge (a : Agent) (i : SlotId) (s : State) : leaseSide s (s.purge a i) :=
  leaseSide_of_eq ⟨_, _, _, _, rfl⟩

theorem leaseSide_relevelQueued (a : Agent) (i : SlotId) (level : Level) (s : State) :
    leaseSide s (s.relevelQueued a i level) :=
  leaseSide_of_eq ⟨_, _, _, _, rfl⟩

theorem leaseSide_countIn (t : Term) (s : State) : leaseSide s (countIn t s) := by
  unfold countIn
  split
  · exact leaseSide_of_eq ⟨_, _, _, _, rfl⟩
  · exact leaseSide.refl _

theorem leaseSide_countOut (t : Term) (s : State) : leaseSide s (countOut t s) := by
  unfold countOut
  split
  · exact leaseSide_of_eq ⟨_, _, _, _, rfl⟩
  · exact leaseSide.refl _

theorem unlink_eq (h : Handle) (w : WakeLine) : w.unlink h = { w with link := (w.unlink h).link } := by
  unfold WakeLine.unlink
  split <;> rfl

theorem wake_clearLinks (h : Handle) (s : State) (k : LineId) : (clearLinks h s).wake k = (s.wake k).unlink h := by
  simp [clearLinks, State.wake]

theorem leaseSide_clearLinks (h : Handle) (s : State) : leaseSide s (clearLinks h s) :=
  ⟨⟨_, _, _, _, _, rfl⟩, fun k => by rw [wake_clearLinks, ← unlink_eq]⟩

theorem leaseSide_leaveTable (i : SlotId) (l : Lease) (s : State) : leaseSide s (leaveTable i l s) :=
  (leaseSide.trans (t := s.setList l.domain ((s.list l.domain).filter fun j => j ≠ i))
    (leaseSide_of_eq ⟨_, _, _, _, rfl⟩) (leaseSide_countOut _ _)).trans (leaseSide_clearLinks _ _)

theorem leaseSide_endLease (i : SlotId) (cause : EndCause) (s : State) : leaseSide s (endLease i cause s) := by
  unfold endLease
  repeat' split
  · exact ((leaseSide_leaveTable _ _ _).trans (leaseSide_setLease _ _ _)).trans (leaseSide_post _ _ _)
  · exact leaseSide.refl _
  · exact leaseSide.refl _

theorem leaseSide_freeSlot (i : SlotId) (s : State) : leaseSide s (freeSlot i s) := by
  unfold freeSlot
  split
  · refine leaseSide.trans (leaseSide.trans ?_ (leaseSide_of_eq ⟨_, _, _, _, rfl⟩)) (leaseSide_purge _ _ _)
    split
    · exact leaseSide_leaveTable _ _ _
    · exact leaseSide.refl _
  · exact leaseSide.refl _

theorem leaseSide_freeSlots (is : List SlotId) (s : State) : leaseSide s (freeSlots is s) :=
  leaseSide.foldl _ (fun s i => leaseSide_freeSlot i s) _ _

theorem leaseSide_placeLease (i : SlotId) (l : Lease) (s : State) : leaseSide s (placeLease i l s) :=
  leaseSide.trans (t := (s.setLease i l).setList l.domain (s.list l.domain ++ [i])) (leaseSide_of_eq ⟨_, _, _, _, rfl⟩)
    (leaseSide_countIn _ _)

theorem wake_placeLease (i : SlotId) (l : Lease) (s : State) : (placeLease i l s).wake = s.wake := by
  unfold placeLease countIn
  split <;> rfl

theorem leaseSide_setLink (k : LineId) (link : Option Handle) (s : State) :
    leaseSide s (s.setWake k { s.wake k with link := link }) := by
  refine ⟨⟨_, _, _, _, _, rfl⟩, fun j => ?_⟩
  rw [wake_setWake]
  split
  · subst j; rfl
  · rfl

theorem leaseSide_reportLease (assured : Level) (i : SlotId) (s : State) : leaseSide s (reportLease assured i s) := by
  unfold reportLease
  repeat' split
  all_goals exact leaseSide.refl _

theorem leaseSide_reloadClaim (w : WindowId) (s : State) : leaseSide s (reloadClaim w s) := by
  refine leaseSide.foldl _ (fun s i => ?_) _ _
  unfold reloadAt
  repeat' split
  all_goals exact leaseSide.refl _

theorem leaseSide_matchAddress (a : Address) (s : State) : leaseSide s (matchAddress a s) :=
  leaseSide.foldl _ (fun s w => leaseSide_reloadClaim w s) _ _

theorem leaseSide_tickLease (s : State) (i : SlotId) : leaseSide s (tickLease s i) := by
  unfold tickLease
  repeat' split
  all_goals first
    | exact leaseSide.refl _
    | exact leaseSide_endLease _ _ _

theorem leaseSide_takeExpiry (i : SlotId) (s : State) : leaseSide s (takeExpiry i s) := by
  unfold takeExpiry
  repeat' split
  all_goals first
    | exact leaseSide.refl _
    | exact leaseSide_endLease _ _ _

/-- R30: the lease table's share of a tick touches slots, lists, windows, links and queues. -/
theorem leaseSide_tickLeases (s : State) : leaseSide s (tickLeases s) :=
  leaseSide.foldl _ leaseSide_tickLease _ _

theorem leaseSide_endAll (is : List SlotId) (cause : EndCause) (s : State) : leaseSide s (endAll is cause s) :=
  leaseSide.foldl _ (fun s i => leaseSide_endLease i cause s) _ _

theorem leaseSide_detachAgent (a : Agent) (s : State) : leaseSide s (detachAgent a s) :=
  (leaseSide_freeSlots _ _).trans (leaseSide_of_eq ⟨_, _, _, _, rfl⟩)

/-- R117: a wake creation touches slots, lists, windows, links and queues. -/
theorem leaseSide_wakeCreation (k : LineId) (t : Template) (s : State) : leaseSide s (wakeCreation k t s).1 := by
  have made : ∀ i l, leaseSide s ((placeLease i l s).setWake k { s.wake k with link := some (s.handle i) }) := by
    intro i l
    refine (leaseSide_placeLease i l s).trans ?_
    rw [← wake_placeLease i l s]
    exact leaseSide_setLink _ _ _
  unfold wakeCreation
  repeat' split
  all_goals first
    | exact leaseSide.refl _
    | exact made _ _

theorem leaseSide_wakeClaim (k : LineId) (s : State) : leaseSide s (wakeClaim k s) := by
  refine leaseSide.trans (t := (settleClaim k s).1) ?_ (leaseSide_post _ _ _)
  unfold settleClaim
  repeat' split
  · exact leaseSide.refl _
  · exact leaseSide_setLease _ _ _
  · exact leaseSide_wakeCreation _ _ _

/-! ### What the making, ending and freeing of one lease leave -/

theorem setLease_eq_withLease (i : SlotId) (l : Lease) (s : State) : s.setLease i l = withLease i l s := rfl

/-- Two states are equal when the parts that the lease table may touch are. -/
theorem leaseSide.ext {s t u : State} (h : leaseSide s t) (k : leaseSide s u) (slots : ∀ i, t.slot i = u.slot i)
    (lists : ∀ d, t.list d = u.list d) (windows : ∀ w, t.window w = u.window w)
    (links : ∀ j, (t.wake j).link = (u.wake j).link) (queues : ∀ a, t.queue a = u.queue a) : t = u := by
  obtain ⟨⟨sl, li, wi, wa, qu, rfl⟩, h⟩ := h
  obtain ⟨⟨sl', li', wi', wa', qu', rfl⟩, k⟩ := k
  have e1 : sl = sl' := Vector.ext fun i hi => slots ⟨i, hi⟩
  have e2 : li = li' := Vector.ext fun i hi => lists ⟨i, hi⟩
  have e3 : wi = wi' := Vector.ext fun i hi => windows ⟨i, hi⟩
  have e4 : qu = qu' := Vector.ext fun i hi => queues ⟨i, hi⟩
  have e5 : wa = wa' := by
    refine Vector.ext fun i hi => ?_
    have := h ⟨i, hi⟩
    rw [links] at this
    exact this.trans (k ⟨i, hi⟩).symm
  subst e1 e2 e3 e4 e5
  rfl

theorem leaseSide_withNewLease (i : SlotId) (l : Lease) (s : State) : leaseSide s (withNewLease i l s) :=
  leaseSide_of_eq ⟨_, _, _, _, rfl⟩

theorem window_countIn (t : Term) (s : State) (w : WindowId) :
    (countIn t s).window w = if t.window? = some w then { s.window w with users := (s.window w).users + 1 } else s.window w := by
  unfold countIn
  cases t.window? with
  | none => simp
  | some v =>
    dsimp only
    rw [window_setWindow]
    by_cases h : w = v
    · subst h; simp
    · rw [if_neg h, if_neg (by simpa using Ne.symm h)]

theorem window_countOut (t : Term) (s : State) (w : WindowId) :
    (countOut t s).window w = if t.window? = some w then { s.window w with users := (s.window w).users - 1 } else s.window w := by
  unfold countOut
  cases t.window? with
  | none => simp
  | some v =>
    dsimp only
    rw [window_setWindow]
    by_cases h : w = v
    · subst h; simp
    · rw [if_neg h, if_neg (by simpa using Ne.symm h)]

/-- R27, R28. -/
theorem placeLease_eq_withNewLease (i : SlotId) (l : Lease) (s : State) : placeLease i l s = withNewLease i l s := by
  have windows : (placeLease i l s).windows = (withNewLease i l s).windows := by
    refine Vector.ext fun w hw => ?_
    have := window_countIn l.term ((s.setLease i l).setList l.domain (s.list l.domain ++ [i])) ⟨w, hw⟩
    simpa [withNewLease, placeLease, State.window, State.setLease] using this
  obtain ⟨e, h⟩ : ∃ e, placeLease i l s = { (s.setLease i l).setList l.domain (s.list l.domain ++ [i]) with windows := e } := by
    unfold placeLease countIn
    split <;> exact ⟨_, rfl⟩
  rw [h] at windows ⊢
  dsimp only at windows
  rw [windows]
  rfl

/-! The reads after a live lease has left the table. -/

theorem list_leaveTable (i : SlotId) (l : Lease) (s : State) (d : Managed) :
    (leaveTable i l s).list d = if d = l.domain then (s.list d).filter (fun j => j ≠ i) else s.list d := by
  have : (leaveTable i l s).list d = (s.setList l.domain ((s.list l.domain).filter fun j => j ≠ i)).list d := by
    unfold leaveTable countOut clearLinks
    split <;> rfl
  rw [this, list_setList]
  split
  · subst d; rfl
  · rfl

theorem window_leaveTable (i : SlotId) (l : Lease) (s : State) (w : WindowId) :
    (leaveTable i l s).window w =
      if l.term.window? = some w then { s.window w with users := (s.window w).users - 1 } else s.window w := by
  exact window_countOut l.term (s.setList l.domain ((s.list l.domain).filter fun j => j ≠ i)) w

theorem wake_leaveTable (i : SlotId) (l : Lease) (s : State) (k : LineId) :
    (leaveTable i l s).wake k = (s.wake k).unlink (s.handle i) := by
  unfold leaveTable
  rw [wake_clearLinks]
  unfold countOut
  split <;> rfl

theorem slots_leaveTable (i : SlotId) (l : Lease) (s : State) : (leaveTable i l s).slots = s.slots := by
  unfold leaveTable countOut clearLinks
  split <;> rfl

theorem queues_leaveTable (i : SlotId) (l : Lease) (s : State) : (leaveTable i l s).queues = s.queues := by
  unfold leaveTable countOut clearLinks
  split <;> rfl

theorem lease_eq_of_slot {s t : State} {i : SlotId} (h : t.slot i = s.slot i) : t.lease i = s.lease i :=
  congrArg Slot.lease h

/-- R128: an ENDED notice never merges. -/
theorem postTo_ended (h : Handle) (cause : EndCause) (q : List Notice) :
    postTo (.ended h cause) q = q ++ [.ended h cause] := by
  induction q with
  | nil => rfl
  | cons n q ih => cases n <;> simp [postTo, Notice.merge, ih]

theorem ite_unlinked (p : Prop) [Decidable p] (w : WakeLine) :
    (if p then { w with link := none } else w) =
      { w with link := (if p then { w with link := none } else w : WakeLine).link } := by
  split <;> rfl

theorem leaseSide_withEnded (order : List SlotId) (cause : SlotId → EndCause) (s : State) :
    leaseSide s (withEnded order cause s) := by
  refine ⟨⟨_, _, _, _, _, rfl⟩, fun k => ?_⟩
  simp only [withEnded, State.wake, Fin.getElem_fin, Vector.getElem_ofFn]
  exact ite_unlinked _ _

theorem leaseSide_withFreed (gone : SlotId → Bool) (s : State) : leaseSide s (withFreed gone s) := by
  refine ⟨⟨_, _, _, _, _, rfl⟩, fun k => ?_⟩
  simp only [withFreed, State.wake, Fin.getElem_fin, Vector.getElem_ofFn]
  exact ite_unlinked _ _

/-! The reads of the closed forms. -/

theorem slot_withFreed (gone : SlotId → Bool) (s : State) (i : SlotId) : (withFreed gone s).slot i =
    if (gone i && (s.lease i).isSome) = true then { generation := (s.slot i).generation + 1, lease := none }
    else s.slot i := by simp [withFreed, State.slot]

theorem list_withFreed (gone : SlotId → Bool) (s : State) (d : Managed) : (withFreed gone s).list d =
    (s.list d).filter fun i => !(gone i && s.liveOn d i) := by simp [withFreed, State.list]

theorem window_withFreed (gone : SlotId → Bool) (s : State) (w : WindowId) : (withFreed gone s).window w =
    { s.window w with users := (s.window w).users - (allSlots.filter fun i => gone i && s.watches w i).length } := by
  simp [withFreed, State.window]

theorem wake_withFreed (gone : SlotId → Bool) (s : State) (k : LineId) : (withFreed gone s).wake k =
    if ((s.wake k).link.any fun h => gone h.slot && s.liveAt h.slot && s.handle h.slot == h) = true then
      { s.wake k with link := none }
    else s.wake k := by simp [withFreed, State.wake]

theorem queue_withFreed (gone : SlotId → Bool) (s : State) (a : Agent) : (withFreed gone s).queue a =
    (s.queue a).filter fun n => !(n.slot?.any fun i => gone i && (s.lease i).any fun l => l.holder == a) := by
  simp [withFreed, State.queue]

theorem slot_withEnded (order : List SlotId) (cause : SlotId → EndCause) (s : State) (i : SlotId) :
    (withEnded order cause s).slot i =
      if (order.contains i && s.liveAt i) = true then
        { s.slot i with lease := (s.lease i).map fun l => { l with state := .ended (cause i) } }
      else s.slot i := by simp [withEnded, State.slot]

theorem list_withEnded (order : List SlotId) (cause : SlotId → EndCause) (s : State) (d : Managed) :
    (withEnded order cause s).list d = (s.list d).filter fun i => !(order.contains i && s.liveOn d i) := by
  simp [withEnded, State.list]

theorem window_withEnded (order : List SlotId) (cause : SlotId → EndCause) (s : State) (w : WindowId) :
    (withEnded order cause s).window w =
      { s.window w with
        users := (s.window w).users - (allSlots.filter fun i => order.contains i && s.watches w i).length } := by
  simp [withEnded, State.window]

theorem wake_withEnded (order : List SlotId) (cause : SlotId → EndCause) (s : State) (k : LineId) :
    (withEnded order cause s).wake k =
      if ((s.wake k).link.any fun h => order.contains h.slot && s.liveAt h.slot && s.handle h.slot == h) = true then
        { s.wake k with link := none }
      else s.wake k := by simp [withEnded, State.wake]

theorem queue_withEnded (order : List SlotId) (cause : SlotId → EndCause) (s : State) (a : Agent) :
    (withEnded order cause s).queue a =
      s.queue a ++ (order.filter fun i => s.liveAt i && (s.lease i).any fun l => l.holder == a).map fun i =>
        .ended (s.handle i) (cause i) := by simp [withEnded, State.queue]

/-- Among live leases on a domain, leaving out one slot of a list is leaving out that slot if it is the domain's. -/
theorem filter_liveOn {s : State} {i : SlotId} {l : Lease} (h : s.lease i = some l) (live : l.live = true) (d : Managed)
    (gone : SlotId → Bool) (one : ∀ j, gone j = true ↔ j = i) :
    (s.list d).filter (fun j => !(gone j && s.liveOn d j)) =
      if d = l.domain then (s.list d).filter (fun j => j ≠ i) else s.list d := by
  have on : s.liveOn d i = decide (d = l.domain) := by
    simp [State.liveOn, h, live, Bool.beq_eq_decide_eq, eq_comm]
  have out : ∀ j, j ≠ i → gone j = false := fun j hj => by
    rw [Bool.eq_false_iff]
    exact fun hg => hj ((one j).1 hg)
  split
  · rename_i hd
    refine List.filter_congr fun j _ => ?_
    by_cases hj : j = i
    · subst hj; rw [on]; simp [(one j).2 rfl, hd]
    · simp [out j hj, hj]
  · rename_i hd
    refine List.filter_eq_self.2 fun j _ => ?_
    by_cases hj : j = i
    · subst hj; simp [on, hd]
    · simp [out j hj]

/-- A slot that holds a live lease is the one watcher among one slot when its term names the window. -/
theorem length_filter_watches {s : State} {i : SlotId} {l : Lease} (h : s.lease i = some l) (live : l.live = true)
    (w : WindowId) (gone : SlotId → Bool) (one : ∀ j, gone j = true ↔ j = i) :
    (allSlots.filter fun j => gone j && s.watches w j).length = if l.term.window? = some w then 1 else 0 := by
  have on : s.watches w i = decide (l.term.window? = some w) := by simp [State.watches, h, live, Bool.beq_eq_decide_eq]
  have : (fun j => gone j && s.watches w j) = fun j => decide (j = i) && s.watches w i := by
    funext j
    by_cases hj : j = i
    · subst hj; simp [(one j).2 rfl]
    · have : gone j = false := by
        rw [Bool.eq_false_iff]
        exact fun hg => hj ((one j).1 hg)
      simp [this, hj]
  rw [this, on]
  split
  · rename_i hw
    simp only [hw, decide_true, Bool.and_true]
    clear this on h one hw
    revert i; decide
  · rename_i hw
    simp [hw]

/-- The link of a wake record that names the lease in a slot is the one cleared with that slot. -/
theorem unlink_link {s : State} {i : SlotId} {l : Lease} (h : s.lease i = some l) (live : l.live = true) (w : WakeLine)
    (gone : SlotId → Bool) (one : ∀ j, gone j = true ↔ j = i) :
    w.unlink (s.handle i) =
      if (w.link.any fun h => gone h.slot && s.liveAt h.slot && s.handle h.slot == h) = true then
        { w with link := none }
      else w := by
  unfold WakeLine.unlink
  have : (w.link = some (s.handle i)) ↔
      (w.link.any fun h => gone h.slot && s.liveAt h.slot && s.handle h.slot == h) = true := by
    cases w.link with
    | none => simp
    | some g =>
      constructor
      · intro e
        cases e
        simp [State.handle, (one i).2 rfl, State.liveAt, h, live]
      · intro e
        simp only [Option.any_some, Bool.and_eq_true, beq_iff_eq] at e
        rw [← e.2, (one _).1 e.1.1]
  by_cases p : w.link = some (s.handle i)
  · rw [if_pos p, if_pos (this.1 p)]
  · rw [if_neg p, if_neg fun q => p (this.2 q)]

/-- R36: the ending of one lease. -/
theorem endLease_eq_withEnded {i : SlotId} {l : Lease} (cause : EndCause) {s : State} (h : s.lease i = some l)
    (live : l.live = true) : endLease i cause s = withEnded [i] (fun _ => cause) s := by
  have one : ∀ j, ([i].contains j) = true ↔ j = i := by simp
  have here : s.liveAt i = true := by simp [State.liveAt, h, live]
  refine (leaseSide_endLease i cause s).ext (leaseSide_withEnded _ _ s) ?_ ?_ ?_ ?_ ?_
  all_goals
    intro j
    rw [endLease, h]
    dsimp only
    rw [if_pos live]
  · rw [State.post, slot_setQueue, State.setLease, slot_setSlot, slot_withEnded]
    have slots : (leaveTable i l s).slot = s.slot := by
      funext k
      rw [State.slot, slots_leaveTable]
      rfl
    rw [slots]
    by_cases hj : j = i
    · subst hj
      rw [if_pos rfl, if_pos (by simp [here]), h]
      rfl
    · rw [if_neg hj, if_neg (by simp [hj])]
  · rw [State.post, list_setQueue, State.setLease, list_setSlot, list_leaveTable, list_withEnded,
      ← filter_liveOn h live j ([i].contains ·) one]
  · rw [State.post, window_setQueue, State.setLease, window_setSlot, window_leaveTable, window_withEnded,
      length_filter_watches h live j ([i].contains ·) one]
    split <;> rfl
  · rw [State.post, wake_setQueue, State.setLease, wake_setSlot, wake_leaveTable, wake_withEnded,
      unlink_link h live _ ([i].contains ·) one]
  · rw [State.post, queue_setQueue, postTo_ended, queue_withEnded]
    have queues : ((leaveTable i l s).setLease i { l with state := .ended cause }).queue = s.queue := by
      rw [State.setLease, queue_setSlot]
      funext a
      rw [State.queue, queues_leaveTable]
      rfl
    rw [queues]
    by_cases hj : j = l.holder
    · subst hj
      simp [here, h]
    · simp [hj, h, Ne.symm hj]

/-- A slot without a live lease is on no list, watches no window, and no link names it. -/
theorem not_live_reads {s : State} {i : SlotId} (h : s.liveAt i = false) :
    (∀ d, s.liveOn d i = false) ∧ (∀ w, s.watches w i = false) := by
  unfold State.liveAt at h
  unfold State.liveOn State.watches
  cases hl : s.lease i with
  | none => simp
  | some l =>
    rw [hl] at h
    simp only at h
    simp [h]

/-- R39: the freeing of one slot that is not FREE. -/
theorem freeSlot_eq_withFreed {i : SlotId} {l : Lease} {s : State} (h : s.lease i = some l) :
    freeSlot i s = withFreed (fun j => j == i) s := by
  have one : ∀ j, (fun j => j == i) j = true ↔ j = i := by simp
  refine (leaseSide_freeSlot i s).ext (leaseSide_withFreed _ s) ?_ ?_ ?_ ?_ ?_
  all_goals
    intro j
    rw [freeSlot, h]
    dsimp only
    rw [State.purge]
  · rw [slot_setQueue, slot_setSlot, slot_withFreed]
    have slots : (if l.live = true then leaveTable i l s else s).slot = s.slot := by
      funext k
      rw [State.slot, apply_ite State.slots, slots_leaveTable, ite_self]
      rfl
    by_cases hj : j = i
    · subst hj
      rw [if_pos rfl, if_pos (by simp [h])]
    · rw [if_neg hj, slots, if_neg (by simp [hj])]
  · rw [list_setQueue, list_setSlot, list_withFreed]
    by_cases live : l.live = true
    · rw [if_pos live, list_leaveTable, ← filter_liveOn h live j (fun j => j == i) one]
    · rw [if_neg live]
      have off := (not_live_reads (s := s) (i := i) (by simp [State.liveAt, h, live])).1 j
      refine (List.filter_eq_self.2 fun k _ => ?_).symm
      by_cases hk : k = i
      · subst hk; simp [off]
      · simp [hk]
  · rw [window_setQueue, window_setSlot, window_withFreed]
    by_cases live : l.live = true
    · rw [if_pos live, window_leaveTable, length_filter_watches h live j (fun j => j == i) one]
      split <;> rfl
    · rw [if_neg live]
      have off := (not_live_reads (s := s) (i := i) (by simp [State.liveAt, h, live])).2 j
      have : (allSlots.filter fun k => k == i && s.watches j k) = [] := by
        refine List.filter_eq_nil_iff.2 fun k _ => ?_
        by_cases hk : k = i
        · subst hk; simp [off]
        · simp [hk]
      rw [this]
      rfl
  · rw [wake_setQueue, wake_setSlot, wake_withFreed]
    by_cases live : l.live = true
    · rw [if_pos live, wake_leaveTable, unlink_link h live _ (fun j => j == i) one]
    · have off : s.liveAt i = false := by simp [State.liveAt, h, live]
      rw [if_neg live, if_neg]
      cases (s.wake j).link with
      | none => simp
      | some g =>
        by_cases hg : g.slot = i
        · simp [hg, off]
        · simp [hg]
  · rw [queue_setQueue, queue_setSlot, queue_withFreed]
    have queues : (if l.live = true then leaveTable i l s else s).queue = s.queue := by
      funext a
      rw [State.queue, apply_ite State.queues, queues_leaveTable, ite_self]
      rfl
    rw [queues]
    by_cases hj : j = l.holder
    · subst hj
      rw [if_pos rfl]
      refine List.filter_congr fun n _ => ?_
      cases n.slot? with
      | none => simp
      | some k =>
        by_cases hk : k = i
        · subst hk; simp [h]
        · simp [hk]
    · rw [if_neg hj]
      refine (List.filter_eq_self.2 fun n _ => ?_).symm
      cases n.slot? with
      | none => rfl
      | some k =>
        by_cases hk : k = i
        · subst hk; simp [h, Ne.symm hj]
        · simp [hk]

/-- R39: freeing a FREE slot changes nothing. -/
theorem freeSlot_free {i : SlotId} {s : State} (h : s.lease i = none) : freeSlot i s = s := by
  rw [freeSlot, h]

/-- R36: ending a lease that is not live changes nothing. -/
theorem endLease_not_live (cause : EndCause) {i : SlotId} {s : State} (h : s.liveAt i = false) :
    endLease i cause s = s := by
  unfold State.liveAt at h
  unfold endLease
  cases hl : s.lease i with
  | none => rfl
  | some l =>
    rw [hl] at h
    simp only at h
    simp [h]

/-! ### The expiry of one lease and the claims it meets (R45) -/

@[simp] theorem load_pending (time : Option Nat) : LeaseState.load time .pending = .pending := rfl
@[simp] theorem load_ended (time : Option Nat) (cause : EndCause) : LeaseState.load time (.ended cause) = .ended cause := rfl
@[simp] theorem load_held (time : Option Nat) (old : Option Countdown) :
    LeaseState.load time (.held old) = .held (time.map (Countdown.reload old)) := rfl

/-- R45: a loading of a countdown that is due at the coming tick comes ahead of that expiry. -/
theorem markOnLoading_due {c : Countdown} (first : c.since = .untouched) (due : c.left ≤ 1) : c.markOnLoading = .ahead := by
  simp only [Countdown.markOnLoading, first, if_pos due]

/-- R30: a loading of a countdown that is not due comes ahead of no expiry. -/
theorem markOnLoading_not_due {c : Countdown} (first : c.since = .untouched) (more : 1 < c.left) :
    c.markOnLoading = .loaded := by
  simp only [Countdown.markOnLoading, first, if_neg (Nat.not_le.2 more)]

/-- A further loading leaves the mark. -/
theorem markOnLoading_again {c : Countdown} (again : c.since ≠ .untouched) : c.markOnLoading = c.since := by
  obtain ⟨left, since⟩ := c
  cases since <;> first | rfl | exact absurd rfl again

theorem markOnLoading_ne_untouched (c : Countdown) : c.markOnLoading ≠ .untouched := by
  obtain ⟨left, since⟩ := c
  cases since <;> simp only [Countdown.markOnLoading] <;> (try split) <;> simp

/-- R106: of two loadings the last decides. -/
theorem reload_reload (old : Option Countdown) (first last : Nat) :
    Countdown.reload (some (Countdown.reload old first)) last = Countdown.reload old last := by
  cases old with
  | none => rfl
  | some c =>
    have := markOnLoading_again (c := { left := first, since := c.markOnLoading }) (markOnLoading_ne_untouched c)
    simp only [Countdown.reload, this]

/-- R106: so it is of the states of a lease. -/
theorem load_load (s : LeaseState) (first last : Nat) : (s.load (some first)).load (some last) = s.load (some last) := by
  cases s with
  | pending => rfl
  | held old => simp [reload_reload]
  | ended cause => rfl

@[simp] theorem settle_pending : LeaseState.settle .pending = .pending := rfl
@[simp] theorem settle_ended (cause : EndCause) : LeaseState.settle (.ended cause) = .ended cause := rfl
@[simp] theorem settle_held (countdown : Option Countdown) :
    LeaseState.settle (.held countdown) = .held (countdown.map Countdown.settle) := rfl

theorem settled_eq (l : Lease) : l.settled = { l with state := l.state.settle } := by
  obtain ⟨holder, domain, term, wanted, granted, state, tag, origin⟩ := l
  cases state with
  | held countdown => cases countdown <;> rfl
  | _ => rfl

/-- The settling of every mark. -/
theorem settleMarks_eq_withSettled (s : State) : settleMarks s = withSettled s := by
  have : Lease.settled = fun l => { l with state := l.state.settle } := funext settled_eq
  have slots : (settleMarks s).slots = (withSettled s).slots :=
    Vector.ext fun i hi => by simp [settleMarks, withSettled, this, State.slot, State.lease]
  exact congrArg (fun slots => { s with slots := slots }) slots

theorem leaseSide_settleMarks (s : State) : leaseSide s (settleMarks s) := leaseSide_of_eq ⟨_, _, _, _, rfl⟩

theorem lease_settleMarks (s : State) (i : SlotId) :
    (settleMarks s).lease i = (s.lease i).map fun l => { l with state := l.state.settle } := by
  simp [settleMarks, State.lease, State.slot]

/-- A lease without a countdown expires neither at a tick nor by LEASE_EXPIRY. -/
theorem takeExpiry_not_held {i : SlotId} {s : State} (h : ∀ l ∈ s.lease i, ∀ c, l.state ≠ .held (some c)) :
    takeExpiry i s = s := by
  unfold takeExpiry
  split
  · rename_i l hl
    split
    · exact absurd ‹_› (h l hl _)
    · rfl
  · rfl

/-- R30, R36: LEASE_EXPIRY ends a lease that the coming tick would end and no claim has been taken ahead of. -/
theorem takeExpiry_ends {i : SlotId} {s : State} {l : Lease} {c : Countdown} (h : s.lease i = some l)
    (held : l.state = .held (some c)) (first : c.since ≠ .ahead) (due : c.expires = true) :
    takeExpiry i s = endLease i l.term.expiryCause s := by
  simp only [takeExpiry, h, held, if_neg first, if_pos due]

/-- R45: LEASE_EXPIRY taken behind a loading ahead of it ends nothing. -/
theorem takeExpiry_behind {i : SlotId} {s : State} {l : Lease} {c : Countdown} (h : s.lease i = some l)
    (held : l.state = .held (some c)) (behind : c.since = .ahead) :
    takeExpiry i s = s.setLease i { l with state := .held (some { c with since := .passed }) } := by
  simp only [takeExpiry, h, held, if_pos behind]

/-- R30: a LEASE_EXPIRY that is not due changes nothing. -/
theorem takeExpiry_not_due {i : SlotId} {s : State} {l : Lease} {c : Countdown} (h : s.lease i = some l)
    (held : l.state = .held (some c)) (first : c.since ≠ .ahead) (late : c.expires = false) : takeExpiry i s = s := by
  simp [takeExpiry, h, held, first, late]

/-- R30: the tick ends a lease whose countdown it brings to zero. -/
theorem tickLease_ends {i : SlotId} {s : State} {l : Lease} {c : Countdown} (h : s.lease i = some l)
    (held : l.state = .held (some c)) (due : c.expires = true) : tickLease s i = endLease i l.term.expiryCause s := by
  simp only [tickLease, h, held, if_pos due]

/-- R30: the tick lowers a countdown that it does not bring to zero. -/
theorem tickLease_lowers {i : SlotId} {s : State} {l : Lease} {c : Countdown} (h : s.lease i = some l)
    (held : l.state = .held (some c)) (more : 1 < c.left) :
    tickLease s i = s.setLease i { l with state := .held (some { left := c.left - 1, since := .untouched }) } := by
  simp [tickLease, h, held, Countdown.expires, Countdown.tick, Nat.not_le.2 more]

/-- R45: the tick leaves a countdown of 1 whose expiry at it has passed. -/
theorem tickLease_passed {i : SlotId} {s : State} {l : Lease} (h : s.lease i = some l)
    (held : l.state = .held (some { left := 1, since := .passed })) :
    tickLease s i = s.setLease i { l with state := .held (some { left := 1, since := .untouched }) } := by
  simp [tickLease, h, held, Countdown.expires, Countdown.tick]

end Sys2Proof.Machine
end

