-- ==== Sys2Proof/Laws/Notices.lean ====
section
/-! SUPPORT. What posting, taking out and relevelling notices do to a queue. -/

namespace Sys2Proof.Machine

/-- A post merges only into a notice of its kind and identity, and leaves that kind and identity. -/
theorem merge_key {post queued merged : Notice} (h : post.merge queued = some merged) :
    merged.key = queued.key ∧ queued.key = post.key := by
  cases post <;> cases queued <;> simp_all [Notice.merge, Notice.key]
  all_goals
    obtain ⟨h, rfl⟩ := h
    simp_all

/-- R126: a post joins the tail when nothing in the queue takes it. -/
theorem postTo_append {post : Notice} {q : List Notice} (h : ∀ n ∈ q, post.merge n = none) :
    postTo post q = q ++ [post] := by
  induction q with
  | nil => rfl
  | cons n q ih =>
    rw [postTo, h n (by simp), ih fun m hm => h m (List.mem_cons_of_mem n hm)]
    rfl

/-- R126: a post merges in place into the first notice that takes it, or joins the tail. -/
theorem postTo_cases (post : Notice) (q : List Notice) :
    (postTo post q = q ++ [post] ∧ ∀ n ∈ q, post.merge n = none) ∨
    ∃ before n after merged, q = before ++ n :: after ∧ post.merge n = some merged ∧
      postTo post q = before ++ merged :: after := by
  induction q with
  | nil => exact .inl ⟨rfl, by simp⟩
  | cons n q ih =>
    cases h : post.merge n with
    | some merged => exact .inr ⟨[], n, q, merged, rfl, h, by simp [postTo, h]⟩
    | none =>
      rcases ih with ⟨eq, all⟩ | ⟨before, m, after, merged, rfl, hm, eq⟩
      · exact .inl ⟨by simp [postTo, h, eq], by simpa [h] using all⟩
      · exact .inr ⟨n :: before, m, after, merged, rfl, hm, by simp [postTo, h, eq]⟩

/-- A post leaves every kind and identity of the queue in its place, and adds at most its own at the tail. -/
theorem keys_postTo (post : Notice) (q : List Notice) :
    (postTo post q).map Notice.key = q.map Notice.key ∨
    (postTo post q).map Notice.key = q.map Notice.key ++ [post.key] := by
  rcases postTo_cases post q with ⟨eq, _⟩ | ⟨before, n, after, merged, rfl, hm, eq⟩
  · exact .inr (by simp [eq])
  · exact .inl (by simp [eq, (merge_key hm).1])

/-- A queue grows by at most one notice at a post. -/
theorem length_postTo (post : Notice) (q : List Notice) :
    q.length ≤ (postTo post q).length ∧ (postTo post q).length ≤ q.length + 1 := by
  rcases keys_postTo post q with h | h
  all_goals
    have := congrArg List.length h
    simp at this
    omega

/-- Every notice after a post was there, or is the post, or is the post merged into one that was there. -/
theorem mem_postTo {post n : Notice} {q : List Notice} (h : n ∈ postTo post q) :
    n ∈ q ∨ n = post ∨ ∃ m ∈ q, post.merge m = some n := by
  rcases postTo_cases post q with ⟨eq, _⟩ | ⟨before, m, after, merged, rfl, hm, eq⟩
  · rw [eq] at h
    rcases List.mem_append.1 h with h | h
    · exact .inl h
    · exact .inr (.inl (List.mem_singleton.1 h))
  · rw [eq] at h
    simp only [List.mem_append, List.mem_cons] at h ⊢
    rcases h with h | rfl | h
    · exact .inl (.inl h)
    · exact .inr (.inr ⟨m, by simp, hm⟩)
    · exact .inl (.inr (.inr h))

/-- R127: relevelling a queue keeps every kind and identity. -/
theorem keys_relevel (i : SlotId) (level : Level) (q : List Notice) :
    (q.map (Notice.relevel i level)).map Notice.key = q.map Notice.key := by
  rw [List.map_map]
  refine List.map_congr_left fun n _ => ?_
  cases n <;> simp only [Function.comp, Notice.relevel]
  split <;> rfl

end Sys2Proof.Machine
end

