-- ==== Sys2Proof/Laws/Operands.lean ====
section
/-! SUPPORT. What each field of a request body decodes to: its codes are read back, and bytes out of range are none; and how
bits are read as bytes. -/

namespace Sys2Proof.Machine

/-! ### Bits and bytes (R188) -/

@[simp] theorem length_byteBits (b : Byte) : (byteBits b).length = 8 := by simp [byteBits]

theorem bitsValue_byteBits (b : Byte) : BitVec.ofNat 8 (bitsValue (byteBits b)) = b := by revert b; decide

/-- R188: the eight bits of a byte are read back as that byte. -/
theorem wholeBytes_byteBits_append (b : Byte) (rest : List Bool) :
    wholeBytes (byteBits b ++ rest) = b :: wholeBytes rest := by
  conv_rhs => rw [← bitsValue_byteBits b]
  rfl

/-- R188: a group of fewer than eight bits is not a byte. -/
theorem wholeBytes_short {bits : List Bool} (h : bits.length < 8) : wholeBytes bits = [] := by
  unfold wholeBytes
  split
  · simp only [List.length_cons] at h; omega
  · rfl

/-! ### Codes are read back -/

@[simp] theorem decodeDomain_byteOf (d : Domain) : decodeDomain (byteOf d.val) = some d := by revert d; decide
@[simp] theorem decodeManaged_managedCode (d : Managed) : decodeManaged (managedCode d) = some d := by revert d; decide
@[simp] theorem decodeDomain_managedCode (d : Managed) : decodeDomain (managedCode d) = some (managedDomain d) := by
  revert d; decide
@[simp] theorem decodeAgent_byteOf (a : Agent) : decodeAgent (byteOf a.val) = some a := by revert a; decide
@[simp] theorem decodeSlot_byteOf (i : SlotId) : decodeSlot (byteOf i.val) = some i := by revert i; decide
@[simp] theorem decodeWindow_byteOf (w : WindowId) : decodeWindow (byteOf w.val) = some w := by revert w; decide
@[simp] theorem decodeLine_byteOf (k : LineId) : decodeLine (byteOf k.val) = some k := by revert k; decide
@[simp] theorem decodeLevel_code (l : Level) : decodeLevel l.code = some l := by cases l <;> rfl
@[simp] theorem decodeYesNo_code (b : Bool) : decodeYesNo (yesNoCode b) = some b := by cases b <;> rfl
@[simp] theorem decodeEdge_code (e : Edge) : decodeEdge e.code = some e := by cases e <;> rfl
theorem decodeUpLevel_code {l : Level} (h : l ≠ .off) : decodeUpLevel l.code = some l := by cases l <;> first | rfl | exact absurd rfl h

/-! ### Bytes out of range are none -/

theorem decodeDomain_none {b : Byte} (h : 15 < b.toNat) : decodeDomain b = none := by
  simp [decodeDomain]; omega
theorem decodeManaged_none {b : Byte} (h : 15 < b.toNat) : decodeManaged b = none := by
  simp [decodeManaged, decodeDomain_none h]
theorem decodeAgent_none {b : Byte} (h : 3 < b.toNat) : decodeAgent b = none := by
  simp [decodeAgent]; omega
theorem decodeSlot_none {b : Byte} (h : 47 < b.toNat) : decodeSlot b = none := by
  simp [decodeSlot]; omega
theorem decodeWindow_none {b : Byte} (h : 15 < b.toNat) : decodeWindow b = none := by
  simp [decodeWindow]; omega
theorem decodeLine_none {b : Byte} (h : 7 < b.toNat) : decodeLine b = none := by
  simp [decodeLine]; omega
theorem decodeLevel_none {b : Byte} (h : 3 < b.toNat) : decodeLevel b = none := by
  rcases b with ⟨⟨n, hn⟩⟩
  simp only [decodeLevel]
  simp only [BitVec.toNat] at *
  rcases n with _ | _ | _ | _ | n <;> simp_all
theorem decodeYesNo_none {b : Byte} (h : 1 < b.toNat) : decodeYesNo b = none := by
  rcases b with ⟨⟨n, hn⟩⟩
  simp only [decodeYesNo]
  simp only [BitVec.toNat] at *
  rcases n with _ | _ | n <;> simp_all

/-- A range field answers the number when it is in range, and none when it is not. -/
theorem decodeBetween_eq_some {low high n m : Nat} : decodeBetween low high n = some m ↔ m = n ∧ low ≤ n ∧ n ≤ high := by
  unfold decodeBetween; split
  · simp_all [eq_comm]
  · simp_all

/-! ### D0 and the managed domains -/

@[simp] theorem asManaged_managedDomain (d : Managed) : asManaged (managedDomain d) = some d := by revert d; decide
@[simp] theorem asManaged_zero : asManaged 0 = none := rfl
theorem asManaged_eq_some {d : Domain} {m : Managed} : asManaged d = some m ↔ d = managedDomain m := by
  revert d m; decide

/-! ### Numbers of several bytes -/

@[simp] theorem byteOf_toNat (n : Nat) : (byteOf n).toNat = n % 256 := by simp [byteOf]
theorem bigEndian_two (n : Nat) : bigEndian 2 n = twoBytes n := by
  simp only [bigEndian, twoBytes, byteOf, List.nil_append, List.cons_append]
@[simp] theorem length_bigEndian (len n : Nat) : (bigEndian len n).length = len := by
  induction len generalizing n with
  | zero => rfl
  | succ len ih => simp [bigEndian, ih]

/-- A number below 256 ^ len is read back from its len bytes. -/
theorem foldl_bigEndian (len n : Nat) (h : n < 256 ^ len) :
    (bigEndian len n).foldl (fun m b => 256 * m + b.toNat) 0 = n := by
  induction len generalizing n with
  | zero => simp at h; simp [bigEndian, h]
  | succ len ih =>
    have : n / 256 < 256 ^ len := by rw [Nat.div_lt_iff_lt_mul (by decide)]; rw [pow_succ] at h; exact h
    simp only [bigEndian, List.foldl_append, ih _ this, List.foldl_cons, List.foldl_nil, byteOf_toNat]
    omega

/-- R198: a field of len bytes at place i of a body is the number those bytes were built from. -/
theorem fieldAt_bigEndian (before after : List Byte) (len n : Nat) (h : n < 256 ^ len) :
    fieldAt (before ++ (bigEndian len n ++ after)) before.length len = n := by
  unfold fieldAt
  rw [List.drop_left]
  rw [List.take_left' (length_bigEndian len n), foldl_bigEndian len n h]

end Sys2Proof.Machine
end

