-- ==== Sys2Proof/Laws/Ports.lean ====
section
/-! SUPPORT. The end of an exchange at a port, case by case, and the decoder's early checks. -/

namespace Sys2Proof.Machine

/-! ### Codes -/

/-- R197: a request's code names that request. -/
@[simp] theorem ofCode_code (r : Request) : Request.ofCode r.code = some r := by cases r <;> rfl

/-- R141: a code that is no request's names none. -/
theorem ofCode_eq_none {code : Byte} (h : ∀ r : Request, r.code ≠ code) : Request.ofCode code = none := by
  simp [Request.ofCode, List.find?_eq_none, h]

theorem code_of_ofCode {code : Byte} {r : Request} (h : Request.ofCode code = some r) : r.code = code := by
  simpa using List.find?_some h

/-! ### The port -/

theorem holdReply_eq_answer (p : Agent) (seq : Byte) (st : Status) (body : List Byte) (s : State) :
    holdReply p seq { status := st, body := body } s = answer p seq st body s := rfl

theorem executes_iff (s : State) (p : Agent) (seq : Byte) :
    s.executes p seq = true ↔ s.takesExchange p = true ∧ s.repeats p seq = false := by
  simp [State.executes]

/-- R193, R194: an executed request's reply is held. -/
theorem frameEnd_executes {s : State} {p : Agent} {seq : Byte} {body : List Byte}
    (own : Agent → List Byte → State → State × Reply) (h : s.executes p seq = true) (fits : body.length ≤ 60) :
    frameEnd own p seq body s =
      answer p seq (own p body s).2.status (own p body s).2.body (own p body s).1 := by
  obtain ⟨takes, repeats⟩ := (executes_iff s p seq).1 h
  have : ¬ Config.maxRequestBody < body.length := by simpa [Config.maxRequestBody] using fits
  simp [frameEnd, takes, repeats, this, ← holdReply_eq_answer]

/-- R196: a port that takes no exchange is left as it is. -/
theorem frameEnd_waiting {s : State} {p : Agent} (own : Agent → List Byte → State → State × Reply) (seq : Byte)
    (body : List Byte) (h : s.takesExchange p = false) : frameEnd own p seq body s = s := by
  simp [frameEnd, h]

/-- R193: a retransmitted frame is not executed, and the held reply stays. -/
theorem frameEnd_repeats {s : State} {p : Agent} {seq : Byte} {body : List Byte}
    (own : Agent → List Byte → State → State × Reply) (takes : s.takesExchange p = true)
    (h : s.repeats p seq = true) (fits : body.length ≤ 60) : frameEnd own p seq body s = s := by
  have : ¬ Config.maxRequestBody < body.length := by simpa [Config.maxRequestBody] using fits
  simp [frameEnd, takes, h, this]

/-- A frame whose owner leaves the queue of commands leaves it too. -/
theorem pending_frameEnd {s : State} {p : Agent} {body : List Byte} (own : Agent → List Byte → State → State × Reply)
    (seq : Byte) (h : (own p body s).1.pending = s.pending) : (frameEnd own p seq body s).pending = s.pending := by
  unfold frameEnd holdReply holdBadFrame
  repeat' split
  all_goals first
    | rfl
    | exact h

/-! ### What the decoder checks before any field -/

/-- R139, R140: a request refused by an early check changes nothing. -/
theorem checked_refused {s : State} {r : Request} {p : Agent} {body : List Byte} {st : Status}
    (own : Agent → List Byte → State → State × Reply) (h : s.earlyRefusal r p body = some st) :
    checked r own p body s = refuse st s := by
  simp [checked, h]

/-- R139: a request that passes the early checks is its owner's. -/
theorem checked_taken {s : State} {r : Request} {p : Agent} {body : List Byte}
    (own : Agent → List Byte → State → State × Reply) (sender : r.supervisor = true → p = 0)
    (admitted : r.admission s.partState = none) (length : body.length = r.bodyLength) :
    checked r own p body s = own p body s := by
  have : s.earlyRefusal r p body = none := by
    unfold State.earlyRefusal
    rw [if_neg fun h => h.2 (sender h.1), admitted]
    simp [length]
  simp [checked, this]

/-- R142: a supervisor request from another agent. -/
theorem earlyRefusal_sender (s : State) {r : Request} {p : Agent} (body : List Byte) (h : r.supervisor = true)
    (other : p ≠ 0) : s.earlyRefusal r p body = some .notSupervisor := by
  simp [State.earlyRefusal, h, other]

/-- R170: a request that the part state does not take. -/
theorem earlyRefusal_admission {s : State} {r : Request} {p : Agent} {st : Status} (body : List Byte)
    (sender : r.supervisor = true → p = 0) (h : r.admission s.partState = some st) :
    s.earlyRefusal r p body = some st := by
  unfold State.earlyRefusal
  rw [if_neg fun h => h.2 (sender h.1), h]

/-- R143: a body of another length. -/
theorem earlyRefusal_length {s : State} {r : Request} {p : Agent} {body : List Byte} (sender : r.supervisor = true → p = 0)
    (admitted : r.admission s.partState = none) (h : body.length ≠ r.bodyLength) :
    s.earlyRefusal r p body = some .badLength := by
  unfold State.earlyRefusal
  rw [if_neg fun h => h.2 (sender h.1), admitted]
  simp [h]

/-- What the request owner's check answers keeps the queue of commands when the owner does. -/
theorem pending_checked {s : State} {r : Request} {p : Agent} {body : List Byte}
    (own : Agent → List Byte → State → State × Reply) (h : (own p body s).1.pending = s.pending) :
    (checked r own p body s).1.pending = s.pending := by
  unfold checked
  split
  · rfl
  · exact h

end Sys2Proof.Machine
end

