-- ==== Sys2Proof/Tests/Slice0.lean ====
section
/-! SUPPORT. Tests: ill-formed commands, worked frames of the spec, one step of each kind of command, and a witness for
the hypotheses of every statement. -/

namespace Sys2Proof.Tests

open Sys2Proof.Machine

set_option maxRecDepth 20000

/-! ### Small states -/

/-- The state that a step answers. -/
def next? (o : Host.Outcome State Fault Refusal) : Option State :=
  match o with
  | .next t => some t
  | .fault _ => none
  | .refused _ => none

/-- The bits of bytes, as they are clocked in. -/
def bitsOf (bytes : List Byte) : List Bool := bytes.flatMap byteBits

/-- SETUP with every port and the tap receiver ready. -/
def ready : State :=
  { State.reset with tapAwaits := false, ports := Vector.replicate 4 { Port.reset with awaitsDeselect := false } }

/-- D1 under D0, with the bounds of R4's ranges. -/
def recordA : DomainRecord :=
  { parent := 0, floor := .retain, maxLevel := .boost, weight := 8, pgoodTimeout := 255, settle := 0,
    clockTimeout := some 255, boostSettle := some 0, drain := 1 }

/-- D2 under D1. -/
def recordB : DomainRecord :=
  { parent := 1, floor := .retain, maxLevel := .retain, weight := 1, pgoodTimeout := 1, settle := 255,
    clockTimeout := none, boostSettle := none, drain := 255 }

def configured : State := (ready.setRecord 0 (some recordA)).setRecord 1 (some recordB)

def running : State := { configured with partState := .run }

/-- The domain's engine is put into a state. -/
def put (d : Managed) (st : EngineState) (timer : Option Nat) (s : State) : State :=
  s.setEngine d { state := st, timer := timer, cause := none, drainComplete := false }

/-- HELD with this countdown, not loaded since the last tick. -/
def heldAt (left : Nat) : LeaseState := .held (some { left := left, since := .untouched })

/-- HELD with this countdown and mark. -/
def marked (left : Nat) (since : SinceTick) : LeaseState := .held (some { left := left, since := since })

def leaseA : Lease :=
  { holder := 1, domain := 0, term := .timed 65535, wanted := .run, granted := some .run, state := heldAt 1,
    tag := 0xFFFF, origin := .request }

def handleA : Handle := { slot := 0, generation := 0 }

/-- D1 in RUN for a HELD lease of A1 in slot 0. -/
def leased : State := withNewLease 0 leaseA (put 0 .run none running)

/-- Slots 0 to 46 taken, 16 each by A0 and A1 and 15 by A2; slot 47 is FREE. -/
def crowded : State :=
  (List.finRange 47).foldl
    (fun s i => withNewLease (i.castLE (by decide)) { leaseA with holder := (⟨i.val / 16, by omega⟩ : Agent) } s) running

/-- All 48 slots taken, the last by A2. -/
def full : State := withNewLease 47 { leaseA with holder := 2 } crowded

def windowed : State := running.setWindow 15 { range := some { base := 0xFFFFFFFF, length := 1 }, users := 0 }

/-- A watched lease of A2 on D1 in slot 0, HELD. -/
def watching : State :=
  withNewLease 0 { leaseA with holder := 2, term := .watched 65535 15, state := heldAt 1 } (put 0 .run none windowed)

def ended : State := withLease 0 { leaseA with state := .ended .parentFault } leased

def lineA : WakeLine :=
  { enabled := true, edge := .rise, agent := 3, home := 0, template := some { domain := 0, level := .run, duration := 65535 },
    link := none, baseline := some false }

def listening : State := running.setWake 7 lineA

def failed : State :=
  running.setEngine 0 { state := .fault, timer := none, cause := some .stuckRail, drainComplete := true }

/-- D2 in a state over D1 in RETAIN. -/
def atop (st : EngineState) (timer : Option Nat) : State := put 1 st timer (put 0 .retain none running)

/-! ### Ill-formed commands are refused -/

theorem test_wellFormed_longBody :
    (Instr.status 0 1 (List.replicate 60 0)).wellFormed = true ∧ (Instr.status 0 1 (List.replicate 61 0)).wellFormed = false ∧
    (Instr.clearFault 0 1 (List.replicate 61 0)).wellFormed = false := by decide

theorem test_wellFormed_unknownRequest :
    (Instr.unknownRequest 0 1 0x0B []).wellFormed = true ∧ (Instr.unknownRequest 0 1 0x0A []).wellFormed = false ∧
    (Instr.unknownRequest 0 1 0x0B (List.replicate 61 0)).wellFormed = false := by decide

theorem test_wellFormed_badFrame :
    (Instr.badFrame 0 (bitsOf [0x11])).wellFormed = true ∧
    (Instr.badFrame 0 (bitsOf [0xA5, 1, 1, 0, 0x7E])).wellFormed = false ∧
    (Instr.badFrame 0 (bitsOf [0x00])).wellFormed = false ∧ (Instr.badFrame 0 ((bitsOf [0x11]).take 7)).wellFormed = false := by
  decide

theorem test_wellFormed_retransmission :
    (Instr.retransmission 0 1 1 []).wellFormed = true ∧ (Instr.retransmission 0 0 1 []).wellFormed = false := by decide

theorem test_wellFormed_idleExchange :
    (Instr.idleExchange 0 (bitsOf [0xFF, 1])).wellFormed = true ∧ (Instr.idleExchange 0 (bitsOf [0xA5])).wellFormed = false ∧
    (Instr.idleExchange 0 (bitsOf [0x11])).wellFormed = false ∧
    (Instr.idleExchange 0 ((bitsOf [0x11]).take 7)).wellFormed = true := by decide

/-! ### The spec's own frames and words -/

/-- R191: the check bytes of its two examples. -/
theorem test_checkByte_examples : crc8 [0x01, 0x01, 0x00] = 0x7E ∧ crc8 [0x00, 0x01, 0x00] = 0x15 := by decide

/-- R191: the request frame of a STATUS. -/
theorem test_frame_status :
    requestFrame 0x01 0x01 [] = [0xA5, 0x01, 0x01, 0x00, 0x7E] ∧
    classifyExchange [0xA5, 0x01, 0x01, 0x00, 0x7E] = .good 0x01 0x01 [] := by decide

/-- R188, R191, R196: what a port shifts out after a reset, once its chip select has been seen deasserted. -/
theorem test_shiftOut_reset :
    ready.shiftOut 0 7 = [0x5A, 0x00, 0x01, 0x00, 0x15, 0xFF, 0xFF] ∧ State.reset.shiftOut 0 7 = [] := by decide

/-- R188, R202: the marker 0x5A begins with 0 and 1; SDO is high impedance unselected and in a reset. -/
theorem test_sdoPin :
    [0, 1].map (fun n => ready.sdoPin 0 true n .highImpedance) = [.low, .high] ∧
    ready.sdoPin 0 false 0 .high = .highImpedance ∧
    ({ State.reset with resetHeld := true } : State).sdoPin 0 true 0 .high = .highImpedance := by decide

/-- R188: the first bit taken is bit 7 of its byte, and a final group of seven bits is no byte. -/
theorem test_wholeBytes_dropsAShortGroup :
    wholeBytes ([true, false, false, false, false, false, false, true] ++ List.replicate 7 true) = [0x81] := by decide

/-- R188: eleven clock cycles take the marker and the first three bits of the echo. -/
theorem test_shiftOutBits_givesLeadingBits :
    (ready.setPort 0 { ready.port 0 with held := { echo := 0xA0, status := .ok, body := [] } }).shiftOutBits 0 11 =
      [false, true, false, true, true, false, true, false] ++ [true, false, true] := by decide

/-- R98, R201: the address is sent from its bit 31 down; 80001000H has two ones, so its parity bit is 1. -/
theorem test_tapWord_example :
    tapAddress (wordBits 0x80001000 true) = some 0x80001000 ∧ tapAddress (wordBits 0x80001000 false) = none ∧
    (wordBits 0x80001000 true).head? = some true := by decide

/-- No row of the table has bits. -/
theorem test_withFetchWord_none : State.reset.withFetchWord 8 1 = State.reset := by decide

/-! ### A command of each kind -/

theorem test_step_takesTheFront :
    (next? (step { ready with pending := [.status 0 1 [], .tick] })).map (fun t => (t.pending, (t.port 0).held)) =
      some ([.tick], { echo := 1, status := .ok, body := [0, 0, 0, 48, 8] }) := by decide

theorem test_step_idles : next? (step ready) = some ready := by decide

theorem test_acquire_pending :
    (next? (exec (.acquire 1 1 [1, 2, 1, 0, 0, 5, 0, 7]) running)).map (fun t => ((t.port 1).held.body, t.list 0)) =
      some ([0, 0, 1, 0], [0]) := by decide

theorem test_stepBegin_risesFromOff :
    (next? (exec (.stepBegin 0) (put 0 .off none leased))).map (fun t => ((t.engine 0).state, t.rampQueue)) =
      some (.waitBudget, [0]) := by decide

theorem test_rampGrant_entersRailUp :
    (next? (exec .rampGrant { put 0 .waitBudget none leased with rampQueue := [0] })).map
        (fun t => ((t.engine 0).state, (t.engine 0).timer, t.freeUnits, t.pinLog)) =
      some (.railUp, some 255, 0, [⟨0, .railen, true⟩]) := by decide

theorem test_pgood_arrivesAndGoesOn :
    (next? (exec (.pgoodAsserted 0) { put 0 .railUp (some 9) leased with freeUnits := 0 })).map
        (fun t => ((t.engine 0).state, t.report 0, t.freeUnits)) =
      some (.clockUp, some .retain, 8) := by decide

theorem test_report_grants :
    (next? (exec (.levelReachedReport 0)
        ((withLease 0 { leaseA with granted := none, state := .pending } leased).setReport 0 (some .run)))).map
        (fun t => (t.lease 0, t.queue 1)) =
      some (some { leaseA with state := marked 65535 .loaded }, [.granted handleA .run]) := by decide

theorem test_tick_expires :
    (next? (exec .tick leased)).map (fun t => ((t.lease 0).map Lease.state, t.queue 1, t.list 0)) =
      some (some (.ended .expired), [.ended handleA .expired], []) := by decide

/-- leased, with this countdown and mark. -/
def standingAt (left : Nat) (since : SinceTick) : State := withLease 0 { leaseA with state := marked left since } leased

/-- The state of the lease in slot 0 after a command. -/
def leaseAfter (c : Instr) (s : State) : Option LeaseState := (next? (exec c s)).bind fun t => (t.lease 0).map Lease.state

/-- R45: the first loading since the last tick decides the mark, by whether the expiry was due. -/
theorem test_renew_marksTheLoading :
    leaseAfter (.renew 1 1 [0, 0, 0, 1]) leased = some (marked 1 .ahead) ∧
    leaseAfter (.renew 1 1 [0, 0, 0, 1]) (standingAt 9 .untouched) = some (marked 1 .loaded) ∧
    leaseAfter (.renew 1 1 [0, 0, 0, 1]) (standingAt 1 .loaded) = some (marked 1 .loaded) ∧
    leaseAfter (.renew 1 1 [0, 0, 0, 7]) (standingAt 9 .passed) = some (marked 7 .passed) := by decide

theorem test_tapWord_marksTheLoading :
    leaseAfter (.tapWord (wordBits 0xFFFFFFFF true)) (withLease 0 { leaseA with holder := 2, term := .watched 1 15 } watching) =
      some (marked 1 .ahead) := by decide

/-- R45: the expiry behind a loading ahead of it ends nothing; R30: any other countdown of 1 it ends. -/
theorem test_leaseExpiry_goesByTheMark :
    leaseAfter (.leaseExpiry 0) (standingAt 1 .ahead) = some (marked 1 .passed) ∧
    leaseAfter (.leaseExpiry 0) (standingAt 1 .passed) = some (marked 1 .passed) ∧
    leaseAfter (.leaseExpiry 0) (standingAt 1 .loaded) = some (.ended .expired) ∧
    leaseAfter (.leaseExpiry 0) (standingAt 1 .untouched) = some (.ended .expired) ∧
    leaseAfter (.leaseExpiry 0) (standingAt 2 .loaded) = some (heldAt 2) := by decide

/-- R45: a LEASE_EXPIRY of another slot settles a countdown loaded with 1, so that a RENEW behind it comes ahead of its
expiry. -/
theorem test_leaseExpiry_ofAnotherSlot :
    leaseAfter (.leaseExpiry 1) (standingAt 1 .loaded) = some (heldAt 1) ∧
    leaseAfter (.leaseExpiry 1) (standingAt 1 .ahead) = some (marked 1 .ahead) ∧
    leaseAfter (.leaseExpiry 1) (standingAt 1 .passed) = some (marked 1 .passed) := by decide

/-- D2 defined, its parent D1 not (R1, R9). -/
def orphaned : State := ready.setRecord 1 (some recordB)

theorem test_place_waitsForTheParent :
    orphaned.place 1 = none ∧ orphaned.children 1 = [] ∧ orphaned.ancestors 1 = [] ∧
    (orphaned.setRecord 0 (some recordA)).children 1 = [(1, .retain)] := by decide

/-- R30: every countdown is lowered, but for one of 1 whose expiry at this tick has passed. -/
theorem test_tick_goesByTheMark :
    leaseAfter .tick (standingAt 1 .passed) = some (heldAt 1) ∧
    leaseAfter .tick (standingAt 5 .passed) = some (heldAt 4) ∧
    leaseAfter .tick (standingAt 1 .ahead) = some (.ended .expired) ∧
    leaseAfter .tick (standingAt 1 .loaded) = some (.ended .expired) ∧
    leaseAfter .tick (standingAt 5 .loaded) = some (heldAt 4) := by decide

/-- R106, its second and third rows at an idle period of 1: both orders leave the same lease. -/
theorem test_reload_commutes :
    ({ leaseA with term := .watched 1 15, state := .pending } : Lease).reload.grant =
      ({ leaseA with term := .watched 1 15, state := .pending } : Lease).grant.reload ∧
    ({ leaseA with term := .watched 5 15 } : Lease).reload.renew (some 1) =
      (({ leaseA with term := .watched 5 15 } : Lease).renew (some 1)).reload := by decide

theorem test_takeNotice_frees :
    (next? (exec (.takeNotice 1 1 []) (ended.setQueue 1 [.ended handleA .parentFault]))).map
        (fun t => ((t.port 1).held.body, t.lease 0, (t.slot 0).generation)) =
      some ([0, 2, 0, 0, 5], none, 1) := by decide

theorem test_pgoodLost_isAFault :
    (next? (exec (.pgoodDeasserted 0) leased)).map
        (fun t => ((t.engine 0).state, t.queue 0, (t.lease 0).map Lease.state)) =
      some (.fault, [.fault 0 .pgoodLost 1], some (.ended .fault)) := by decide

theorem test_lineEvent_makesALease :
    (next? (exec (.lineEvent 7 true) listening)).map (fun t => ((t.wake 7).link, t.queue 3, (t.lease 0).map Lease.origin)) =
      some (some handleA, [.wake 7 1 .madePending], some (.line 7)) := by decide

theorem test_partReset_holdsReset :
    (next? (exec .partReset leased)).map (fun t => (t.resetHeld, t.partState, t.lease 0, (t.pinLog).length)) =
      some (true, .setup, none, 4) := by decide

/-! ### Every statement's hypotheses are met -/

theorem test_StepTakesTheFrontCommand_hypotheses : State.reset.pending = [] := by decide

theorem test_GoodIsExactlyAWholeFrame_hypotheses :
    classifyExchange [0xA5, 0x01, 0x01, 0x00, 0x7E, 0x33] = .good 0x01 0x01 [] ∧
    (List.replicate 60 (0xFF : Byte)).length ≤ 60 ∧ ([] : List Byte).length ≤ 60 := by decide

theorem test_BadFramesAreAnsweredBadFrame_hypotheses :
    ((0x5A : Byte) ≠ 0xA5 ∧ (0x5A : Byte) ≠ 0x00 ∧ (0x5A : Byte) ≠ 0xFF) ∧ ([1, 2] : List Byte).length < 3 ∧
    60 < (61 : Byte).toNat ∧ ([7] : List Byte).length < (1 : Byte).toNat + 1 ∧
    ((List.replicate 60 (0 : Byte)).length ≤ 60 ∧ (0x7F : Byte) ≠ crc8 (0x01 :: 0x01 :: BitVec.ofNat 8 0 :: [])) ∧
    (ready.takesExchange 3 = true ∧ classifyExchange (wholeBytes (bitsOf [0x11, 0x22])) = .bad 0x22 ∧
      classifyExchange (wholeBytes (bitsOf [0xA5] ++ [true])) = .bad 0) := by decide

theorem test_IdleExchangeChangesNothing_hypotheses :
    wholeBytes (List.replicate 7 true) = [] ∧ (wholeBytes (bitsOf [0x00, 1])).head? = some 0x00 ∧
    (wholeBytes (bitsOf [0xFF])).head? = some 0xFF ∧
    ((0x01 : Byte) ≠ 0xA5 ∧ (0x01 : Byte) ≠ 0x00 ∧ (0x01 : Byte) ≠ 0xFF) := by decide

theorem test_BytesAndRepliesAreShiftedAsTheRuleSays_hypotheses :
    (List.replicate 7 true).length < 8 ∧ ([] : List Bool).length < 8 ∧ (7 : Nat) < 8 ∧ (6 : Nat) < 7 ∧
    ready.takesExchange 3 = true ∧ State.reset.takesExchange 3 = false ∧
    ({ State.reset with resetHeld := true } : State).resetHeld = true := by decide

/-- A port whose last sequence is 255. -/
def answered : State := ready.setPort 3 { ready.port 3 with lastSeq := some 255 }

theorem test_SequenceDecidesWhatIsExecuted_hypotheses :
    answered.takesExchange 3 = true ∧ (List.replicate 60 (0 : Byte)).length ≤ 60 ∧
    (∃ r : Request, Instr.status 3 255 [] = r.command 3 255 []) ∧
    ((255 : Byte) ≠ 0 ∧ (answered.port 3).lastSeq = some 255) ∧
    ((0 : Byte) = 0 ∨ (answered.port 3).lastSeq ≠ some 0) ∧
    ((answered.port 3).lastSeq ≠ some 254 ∧ Instr.status 3 254 [] ≠ .retransmission 3 254 1 []) :=
  ⟨by decide, by decide, ⟨.status, rfl⟩, by decide, by decide, by decide⟩

theorem test_WaitingPortTakesNoExchange_hypotheses :
    State.reset.takesExchange 3 = false ∧ ({ ready with resetHeld := true } : State).takesExchange 0 = false := by decide

def stopping : State := { configured with partState := .stopping }

theorem test_DecoderChecksInOrder_hypotheses :
    (ready.executes 3 255 = true ∧ running.executes 0 0 = true ∧ stopping.executes 0 1 = true) ∧
    (∀ r : Request, r.code ≠ 0xFF) ∧ (3 : Agent) ≠ 0 ∧ running.partState ≠ .setup ∧ ready.partState ≠ .run ∧
    stopping.partState = .stopping :=
  ⟨by decide, fun r => by cases r <;> decide, by decide, by decide, by decide, by decide⟩

theorem test_BodyLengthsAreFixed_hypotheses :
    ready.executes 3 1 = true ∧ ready.executes 0 1 = true ∧ (List.replicate 60 (0 : Byte)).length ≠ 0 ∧
    Request.takeNotice.admission ready.partState = none ∧ Request.start.admission ready.partState = none ∧
    Request.acquire.admission running.partState = none ∧ (7 : Nat) ≠ 8 ∧ Request.revoke.admission running.partState = none ∧
    ([] : List Byte).length < (0 : Byte).toNat + 1 := by decide

theorem test_RefusalChangesOnlyThePort_hypotheses :
    (∃ t, exec (Request.acquire.command 1 1 []) ready = .next t ∧ (t.port 1).held.status ≠ .ok) ∧
    (∃ t, exec (Request.release.command 0 1 [0, 0]) leased = .next t ∧ (t.port 0).held.status ≠ .ok) ∧
    (∃ t, exec (Request.clearWindow.command 0 1 [15]) watching = .next t ∧ (t.port 0).held.status = .windowInUse) ∧
    (∃ t, exec (Request.revoke.command 0 1 [0, 0]) ended = .next t ∧ (t.port 0).held.status = .leaseEnded) ∧
    (∃ t, exec (Request.start.command 0 1 []) (ready.setRecord 14 (some { recordA with parent := 14 })) = .next t ∧
      (t.port 0).held.status = .badConfig) :=
  ⟨⟨_, rfl, by decide⟩, ⟨_, rfl, by decide⟩, ⟨_, rfl, by decide⟩, ⟨_, rfl, by decide⟩, ⟨_, rfl, by decide⟩⟩

/-- One out-of-range value of each field, at the bound where the field has two. -/
theorem test_RangeFaultsAreBadValue_hypotheses :
    (ready.executes 0 1 = true ∧ ready.partState = .setup ∧ ready.partState ≠ .stopping ∧
      running.executes 0 1 = true ∧ running.partState = .run) ∧
    (15 < (16 : Byte).toNat ∧ 3 < (4 : Byte).toNat ∧ 7 < (8 : Byte).toNat ∧ 1 < (2 : Byte).toNat ∧ 2 < (3 : Byte).toNat) ∧
    ((1 : Byte) ≠ 0 ∧ (5 : Byte).toNat ≤ (5 : Byte).toNat ∧ 8 < (9 : Byte).toNat ∧ 1 < (3 : Byte).toNat) ∧
    (1 : Byte) = 1 := by decide

theorem test_StatusReportsTheCounts_hypotheses : leased.executes 3 255 = true ∧ ([] : List Byte).length ≤ 60 := by decide

theorem test_QueryDomainReportsTheEngine_hypotheses : leased.executes 3 1 = true ∧ 15 < (16 : Byte).toNat := by decide

theorem test_RootDomainIsReportedAtBoost_hypotheses : stopping.executes 2 0 = true := by decide

theorem test_LeaseQueriesReportTheTable_hypotheses :
    leased.executes 3 1 = true ∧ leased.named handleA = some leaseA ∧
    leased.named { slot := 0, generation := 1 } = none ∧ leased.named { slot := 47, generation := 0 } = none ∧
    47 < (48 : Byte).toNat ∧ leased.list 0 = [((0 : SlotId), leaseA)].map Prod.fst ∧
    (∀ x ∈ [((0 : SlotId), leaseA)], leased.lease x.1 = some x.2 ∧ x.2.live = true) := by decide

theorem test_AcquireMakesTheLease_hypotheses :
    (running.executes 1 1 = true ∧ running.partState = .run ∧ running.record 0 = some recordA ∧
      acquireBody (managedDomain 0) .boost (.timed 65535) 0xFFFF [1, 3, 1, 9, 255, 255, 255, 255] ∧ Level.boost ≠ .off ∧
      Level.boost.num ≤ recordA.maxLevel.num ∧ (Term.timed 65535).inRange ∧
      (∀ w ∈ (Term.timed 65535).window?, (running.window w).range.isSome = true) ∧ running.faultAtOrAbove 0 = false ∧
      (running.slotsOf 1).length < 16 ∧ running.lease 0 = none ∧ ∀ j < (0 : SlotId), running.lease j ≠ none) ∧
    (acquireBody (managedDomain 0) .retain (.watched 1 15) 0 [1, 1, 2, 15, 0, 1, 0, 0] ∧
      (∀ w ∈ (Term.watched 1 15).window?, (windowed.window w).range.isSome = true)) ∧
    acquireBody (managedDomain 0) .run .standing 1 [1, 2, 3, 255, 255, 255, 0, 1] ∧
    (crowded.executes 3 1 = true ∧ (crowded.slotsOf 2).length < 16 ∧ crowded.lease 47 = none ∧
      ∀ j < (47 : SlotId), crowded.lease j ≠ none) :=
  ⟨⟨by decide, by decide, by decide, ⟨9, by decide⟩, by decide, by decide, by unfold Term.inRange; decide, by decide,
      by decide, by decide, by decide, by decide⟩,
    ⟨by unfold acquireBody; decide, by decide⟩, ⟨255, 255, 255, by decide⟩, by decide⟩

theorem test_AcquireRefusesInItsOrder_range :
    running.executes 0 1 = true ∧ 15 < (16 : Byte).toNat ∧ 3 < (4 : Byte).toNat ∧ (0 : Byte).toNat = 0 ∧
    15 < (255 : Byte).toNat ∧ 3 < (255 : Byte).toNat := by decide

theorem test_AcquireRefusesInItsOrder_hypotheses :
    (∀ m, asManaged 0 = some m → running.record m = none) ∧ (∀ m, asManaged 15 = some m → running.record m = none) ∧
    (recordB.maxLevel.num < Level.boost.num ∧ running.record 1 = some recordB) ∧
    (∃ w ∈ (Term.watched 1 0).window?, (running.window w).range = none) ∧ failed.faultAtOrAbove 1 = true ∧
    (16 ≤ (crowded.slotsOf 0).length ∧ crowded.faultAtOrAbove 0 = false) ∧
    (¬ 16 ≤ (full.slotsOf 3).length ∧ ∀ i, full.lease i ≠ none) := by decide

def standing : State := withLease 0 { leaseA with term := .standing, state := .held none } leased

theorem test_HandleChecksOfLeaseRequests_hypotheses :
    (leased.executes 1 1 = true ∧ leased.executes 0 1 = true ∧ leased.partState = .run ∧
      leased.named { slot := 0, generation := 255 } = none) ∧
    (leased.named handleA = some leaseA ∧ leaseA.holder ≠ 0 ∧ Level.retain ≠ .off ∧
      ∀ r ∈ leased.record leaseA.domain, Level.boost.num ≤ r.maxLevel.num) ∧
    (ended.executes 1 1 = true ∧ ended.named handleA = some { leaseA with state := .ended .parentFault } ∧
      ∀ r ∈ ended.record leaseA.domain, Level.boost.num ≤ r.maxLevel.num) ∧
    (standing.executes 1 1 = true ∧ standing.partState = .run ∧
      standing.named handleA = some { leaseA with term := .standing, state := .held none }) ∧
    (47 < (48 : Byte).toNat ∧ 3 < (4 : Byte).toNat) ∧
    ((withLease 0 { leaseA with domain := 1 } leased).named handleA = some { leaseA with domain := 1 } ∧
      (withLease 0 { leaseA with domain := 1 } leased).executes 3 1 = true ∧
      (withLease 0 { leaseA with domain := 1 } leased).record 1 = some recordB ∧
      recordB.maxLevel.num < Level.run.num) := by decide

def pendingA : Lease := { leaseA with granted := none, state := .pending }

theorem test_RenewLoadsTheTime_hypotheses :
    (leased.executes 1 1 = true ∧ leased.partState = .run ∧ leased.named handleA = some leaseA ∧ leaseA.live = true ∧
      leaseA.term = .timed 65535 ∧ Term.timed 65535 = .timed (if 0 = 0 then 65535 else 0)) ∧
    (watching.executes 2 1 = true ∧ (watching.named handleA).map Lease.term = some (.watched 65535 15) ∧
      Term.watched 1 15 = .watched (if 1 = 0 then 65535 else 1) 15) ∧
    ((withLease 0 pendingA leased).named handleA = some pendingA ∧ pendingA.live = true) := by decide

theorem test_ModifySetsTheLevels_hypotheses :
    (leased.executes 1 1 = true ∧ leased.partState = .run ∧ leased.named handleA = some leaseA ∧ leaseA.holder = 1 ∧
      leaseA.live = true ∧ leased.record leaseA.domain = some recordA) ∧
    (Level.run = leaseA.wanted ∧ Level.boost ≠ leaseA.wanted ∧ Level.boost.num ≤ recordA.maxLevel.num ∧
      Level.retain ≠ .off) ∧
    ((withLease 0 pendingA leased).named handleA = some pendingA ∧ pendingA.state = .pending ∧
      Level.retain.num ≤ ((withLease 0 pendingA leased).assuredOf 0).num ∧
      ¬ Level.boost.num ≤ ((withLease 0 pendingA leased).assuredOf 0).num) := by decide

theorem test_ReleaseFreesTheSlot_hypotheses :
    leased.executes 1 1 = true ∧ leased.named handleA = some leaseA ∧ leaseA.holder = 1 ∧
    (ended.executes 1 1 = true ∧ ended.partState = .run ∧ (ended.named handleA).isSome = true) := by decide

theorem test_TakeNoticeTakesTheHead_hypotheses :
    leased.executes 3 1 = true ∧ leased.queue 3 = [] ∧
    (leased.setQueue 3 [.wake 0 255 .none]).queue 3 = .wake 0 255 .none :: [] ∧
    (∀ h cause, Notice.wake 0 255 .none ≠ .ended h cause) ∧
    (ended.setQueue 1 [.ended handleA .parentFault]).queue 1 = .ended handleA .parentFault :: [] :=
  ⟨by decide, by decide, by decide, fun _ _ => by simp, by decide⟩

theorem test_DetachAndEvictFreeTheAgent_hypotheses :
    ready.executes 3 1 = true ∧ ready.partState ≠ .stopping ∧ crowded.executes 0 1 = true ∧ crowded.partState = .run ∧
    3 < (4 : Byte).toNat := by decide

theorem test_RevokeEndsTheLease_hypotheses :
    leased.executes 0 1 = true ∧ leased.partState = .run ∧ leased.named handleA = some leaseA ∧ leaseA.live = true ∧
    ((withLease 0 pendingA leased).named handleA = some pendingA ∧ pendingA.live = true) := by decide

theorem test_GenerationsCountTheFreeings_hypotheses :
    Instr.release 1 1 [0, 0] ≠ .partReset ∧ (∃ t, exec (.release 1 1 [0, 0]) leased = .next t ∧ leased.lease 0 ≠ none) ∧
    ∃ t, exec .partReset leased = .next t :=
  ⟨by decide, ⟨_, rfl, by decide⟩, ⟨_, rfl⟩⟩

def failedSetup : State :=
  ready.setEngine 0 { state := .fault, timer := none, cause := some .pgoodLost, drainComplete := true }

theorem test_DefineDomainWritesTheRecord_hypotheses :
    (ready.executes 0 1 = true ∧ ready.partState = .setup ∧ recordA.inRange 0 ∧
      recordBody 0 recordA [1, 0, 1, 3, 8, 255, 0, 255, 0, 1]) ∧
    (recordB.inRange 1 ∧ recordBody 1 recordB [2, 1, 1, 1, 1, 1, 255, 7, 7, 255]) ∧ (ready.engine 0).state ≠ .fault ∧
    (failedSetup.executes 0 1 = true ∧ (failedSetup.engine 0).state = .fault) ∧
    (0 < (1 : Byte).toNat ∧ (3 : Byte).toNat ≤ 3 ∧ (0 : Managed).val < (1 : Byte).toNat) :=
  ⟨⟨by decide, by decide, by unfold DomainRecord.inRange; decide, ⟨0, 0, by decide⟩⟩,
    ⟨by unfold DomainRecord.inRange; decide, ⟨7, 7, by decide⟩⟩, by decide, by decide, by decide⟩

theorem test_WakeRecordsAreWrittenAndReported_hypotheses :
    ready.executes 0 1 = true ∧ ready.partState = .setup ∧
    (∀ t ∈ lineA.template, t.level ≠ .off ∧ 1 ≤ t.duration ∧ t.duration ≤ 65535) ∧
    wakeBody 7 true .both 3 15 lineA.template [7, 1, 2, 3, 15, 1, 1, 2, 255, 255] ∧
    wakeBody 0 false .rise 0 0 none [0, 0, 0, 0, 0, 0, 1, 2, 3, 4] ∧ 7 < (8 : Byte).toNat :=
  ⟨by decide, by decide, by decide, by simp only [wakeBody, lineA]; decide, ⟨1, 2, 3, 4, by decide⟩, by decide⟩

theorem test_WindowsAreWrittenAndCleared_hypotheses :
    ready.executes 0 1 = true ∧ ready.partState ≠ .stopping ∧ 1099511627775 < 1099511627776 ∧
    (1 ≤ 1 ∧ (0xFFFFFFFF : Address).toNat + 1 ≤ 4294967296) ∧ ¬ (0xFFFFFFFF : Address).toNat + 2 ≤ 4294967296 ∧
    0 < (watching.window 15).users := by decide

theorem test_WakeEnableSwitchesTheLine_hypotheses :
    (running.executes 0 1 = true ∧ running.partState = .run ∧ detectorLaw running ∧ (running.wake 7).enabled = false ∧
      lineChecked running 7) ∧
    ((running.setWake 0 { lineA with enabled := false, home := 15, baseline := none }).executes 0 1 = true ∧
      ¬ lineChecked (running.setWake 0 { lineA with enabled := false, home := 15, baseline := none }) 0) ∧
    (detectorLaw listening ∧ (listening.wake 7).enabled = true) :=
  ⟨⟨by decide, by decide, by unfold detectorLaw; decide, by decide, by rw [lineChecked_iff]; decide⟩,
    ⟨by decide, by rw [lineChecked_iff]; decide⟩, ⟨by unfold detectorLaw; decide, by decide⟩⟩

theorem test_StartChecksAndRuns_hypotheses :
    (failedSetup.executes 0 1 = true ∧ failedSetup.partState = .setup ∧ ∃ d, (failedSetup.engine d).state = .fault) ∧
    ((∀ d, ((ready.setRecord 1 (some recordB)).engine d).state ≠ .fault) ∧
      ¬ domainChecked (ready.setRecord 1 (some recordB)) 1 ∧ ∀ e < (1 : Managed), domainChecked (ready.setRecord 1 (some recordB)) e) ∧
    ((∀ d, domainChecked (ready.setWake 7 { lineA with home := 15 }) d) ∧
      ¬ lineChecked (ready.setWake 7 { lineA with home := 15 }) 7 ∧
      ∀ j < (7 : LineId), ((ready.setWake 7 { lineA with home := 15 }).wake j).enabled = true →
        lineChecked (ready.setWake 7 { lineA with home := 15 }) j) ∧
    ((∀ d, domainChecked configured d) ∧ (∀ k, (configured.wake k).enabled = true → lineChecked configured k) ∧
      ∀ k, (configured.wake k).baseline = none) := by
  simp only [domainChecked_iff, lineChecked_iff]; decide

theorem test_RestartFreesEverything_hypotheses :
    full.executes 0 1 = true ∧ full.partState = .run ∧ (∀ d, (full.engine d).down = true) ∧
    ¬ (∀ d, (leased.engine d).down = true) := by decide

theorem test_ClearFaultReturnsTheDomainToOff_hypotheses :
    (failed.executes 0 1 = true ∧ failed.partState ≠ .stopping ∧ failed.record 14 = none ∧ failed.record 0 ≠ none) ∧
    (failed.engine 1).state ≠ .fault ∧
    ((put 1 .draining (some 1) failed).engine 0).state = .fault ∧
    (∃ e, (put 1 .draining (some 1) failed).below 0 e = true ∧ ((put 1 .draining (some 1) failed).engine e).drains = true) ∧
    ({ failed with pgood := failed.pgood.set 0 true } : State).pgood[0] = true ∧
    (¬ ((failed.engine 0).drainComplete = false ∨ ∃ e, failed.below 0 e = true ∧ (failed.engine e).drains = true) ∧
      failed.pgood[0] = false ∧ faultLaw failed ∧ recordLaw failed ∧ detectorLaw failed) := by
  unfold faultLaw recordLaw DomainRecord.inRange detectorLaw; decide

theorem test_TapWordReloadsWatchedLeases_hypotheses :
    (watching.resetHeld = false ∧ watching.tapAwaits = false ∧ watching.partState = .run ∧
      (wordBits 0xFFFFFFFF true).count true % 2 = 1 ∧ watching.matchesWindow 0xFFFFFFFF 15 = true) ∧
    ((wordBits 0xFFFFFFFF false).count true % 2 = 0 ∧ (List.replicate 32 true).length ≠ 33 ∧ ready.partState ≠ .run ∧
      State.reset.tapAwaits = true) := by decide

theorem test_LineEventsFollowTheBaseline_hypotheses :
    (running.detectorActive 7 = false ∧ (running.wake 7).baseline = none ∧ (listening.wake 7).baseline = some false) ∧
    ((listening.setWake 7 { lineA with edge := .fall }).resetHeld = false ∧
      (listening.setWake 7 { lineA with edge := .fall }).detectorActive 7 = true ∧
      ((listening.setWake 7 { lineA with edge := .fall }).wake 7).baseline = some (!true) ∧
      ((listening.setWake 7 { lineA with edge := .fall }).wake 7).edge = if true then .fall else .rise) := by decide

/-- Line 7 linked to the lease of leased. -/
def linkedLine : State := leased.setWake 7 { lineA with agent := 1, link := some handleA }

theorem test_WakeClaimSettlesByTheFirstRow_hypotheses :
    (listening.resetHeld = false ∧ listening.detectorActive 7 = true ∧ (listening.wake 7).baseline = some (!true) ∧
      (listening.wake 7).edge = if true then .rise else .fall) ∧
    ((running.setWake 7 { lineA with template := none, edge := .both }).detectorActive 7 = true ∧
      ((running.setWake 7 { lineA with template := none, edge := .both }).wake 7).template = none) ∧
    (linkedLine.detectorActive 7 = true ∧ (linkedLine.wake 7).link = some handleA ∧ linkedLine.named handleA = some leaseA ∧
      leaseA.live = true ∧ leaseA.term = .timed 65535) ∧
    ((failed.setWake 7 lineA).faultAtOrAbove 0 = true ∧ (failed.setWake 7 lineA).detectorActive 7 = true) ∧
    (16 ≤ ((crowded.setWake 7 { lineA with agent := 0 }).slotsOf 0).length) ∧
    (¬ 16 ≤ ((full.setWake 7 lineA).slotsOf 3).length ∧ ∀ i, (full.setWake 7 lineA).lease i ≠ none) ∧
    ((crowded.setWake 7 lineA).lease 47 = none ∧ ∀ j < (47 : SlotId), (crowded.setWake 7 lineA).lease j ≠ none) := by decide

theorem test_OutputsAndAttentionFollowTheState_hypotheses :
    leased.record 14 = none ∧ leased.record 0 = some recordA ∧ levelLaw leased ∧ (leased.outputs 0).safe = true ∧
    Outputs.off.safe = true := by
  unfold levelLaw; decide

theorem test_TimedStepsArrive_hypotheses :
    (leased.resetHeld = false ∧ (leased.engine 0).state ≠ .railUp ∧
      ((put 0 .railUp (some 1) leased).engine 0).state = .railUp ∧ (put 0 .railUp (some 1) leased).fits 0 recordA .retain ∧
      recordA.settle = 0 ∧ (atop .railUp (some 1)).fits 1 recordB .retain ∧ 0 < recordB.settle) ∧
    (((put 0 .settle (some 0) leased).engine 0).timer = some 0 ∧ (put 0 .settle (some 0) leased).fits 0 recordA .retain) ∧
    (put 0 .clockUp (some 9) leased).fits 0 recordA .run ∧
    (((put 0 .boostUp (some 0) leased).engine 0).state = .boostUp ∧ (put 0 .boostUp (some 0) leased).fits 0 recordA .boost) ∧
    (((put 0 .boostDown (some 0) leased).engine 0).timer = some 0 ∧ (put 0 .boostDown (some 0) leased).fits 0 recordA .run) := by
  and_intros <;> decide

theorem test_DrainsEndInOffOrStay_hypotheses :
    (recordLaw (put 0 .draining (some 0) running) ∧ (put 0 .draining (some 0) running).record 0 = some recordA ∧
      ((put 0 .draining (some 0) running).engine 0).timer = some 0 ∧ (put 0 .draining (some 0) running).pgood[0] = false) ∧
    (recordLaw (put 0 .fault (some 0) running) ∧ ((put 0 .fault (some 0) running).engine 0).state = .fault) := by
  unfold recordLaw DomainRecord.inRange; decide

theorem test_FaultEventsAreWhole_hypotheses :
    (leased.resetHeld = false ∧ recordLaw leased ∧ listLaw leased ∧ leased.record 0 = some recordA) ∧
    (leased.engine 0).state.supervisesPgood = true ∧
    ((leased.engine 0).state.supervisesCkok = true ∧ Level.retain.num < recordA.maxLevel.num) ∧
    (((put 0 .railUp (some 0) leased).engine 0).state = .railUp ∧ listLaw (put 0 .railUp (some 0) leased)) ∧
    ((put 0 .clockUp (some 0) leased).engine 0).state = .clockUp ∧
    (((put 0 .draining (some 0) running).engine 0).timer = some 0 ∧
      ({ put 0 .draining (some 0) running with pgood := Vector.replicate 15 true } : State).pgood[0] = true) := by
  unfold recordLaw DomainRecord.inRange listLaw; decide

theorem test_EventsNotDueChangeNothing_hypotheses :
    (running.engine 0).state ∈ [EngineState.off, .waitParent, .waitBudget, .railUp, .draining, .fault] ∧
    ({ running with resetHeld := true } : State).resetHeld = true ∧ (running.engine 0).state ≠ .clockUp ∧
    (running.engine 0).state ∉ [EngineState.run, .boostUp, .boost, .boostDown] ∧
    (∀ r ∈ running.record 1, r.maxLevel.num ≤ 1) ∧
    ((put 0 .railUp (some 1) running).engine 0).timer ≠ some 0 ∧
    (∀ l ∈ (standingAt 2 .untouched).lease 0, ∀ c, l.state = .held (some c) →
      c.since = .passed ∨ (c.since ≠ .ahead ∧ 1 < c.left)) ∧
    running.report 0 = none :=
  ⟨by decide, by decide, by decide, by decide, by decide, by decide,
    fun l hl c hc => by
      have : (standingAt 2 .untouched).lease 0 = some { leaseA with state := heldAt 2 } := by decide
      rw [this] at hl
      cases hl
      cases hc
      decide,
    by decide⟩

theorem test_StepBeginReadsTheTarget_hypotheses :
    (leased.stepDue 0 = false ∧ recordLaw leased ∧ detectorLaw leased ∧ leased.partState ≠ .stopping) ∧
    (((put 0 .off none leased).engine 0).state = .off ∧ (put 0 .off none leased).target 0 ≠ .off ∧
      (put 0 .off none leased).record 0 ≠ none) ∧
    (((put 0 .retain none leased).engine 0).state = Level.retain.engineState ∧ (put 0 .retain none leased).fits 0 recordA .retain ∧
      (put 0 .retain none leased).target 0 ≠ .retain) ∧
    ((put 0 .boost none leased).fits 0 recordA .boost ∧ (put 0 .boost none leased).target 0 ≠ .boost) ∧
    ((put 1 .waitParent none running).target 1 = .off ∧ ((put 1 .waitParent none running).engine 1).state = .waitParent) ∧
    ((put 1 .waitBudget none running).target 1 = .off ∧ ((put 1 .waitBudget none running).engine 1).state = .waitBudget) := by
  and_intros
  all_goals first
    | decide
    | (unfold recordLaw DomainRecord.inRange; decide)
    | (unfold detectorLaw; decide)

/-- D1 granted next, its weight exactly the free units. -/
def queued : State := { put 0 .waitBudget none leased with rampQueue := [0] }

/-- D1 next, PGOOD seen and settle 0, with D2 waiting for it. -/
def chained : State := { put 1 .waitParent none queued with pgood := Vector.replicate 15 true }

theorem test_RampGrantServesTheQueueInOrder_hypotheses :
    (queued.resetHeld = false ∧ recordLaw queued ∧ queueLaw queued ∧ definedLaw queued ∧
      ∀ d ∈ queued.rampQueue, ∀ r ∈ queued.record d, queued.pgoodSeen d = false ∨ 0 < r.settle) ∧
    (chained.resetHeld = false ∧ recordLaw chained ∧ queueLaw chained ∧ definedLaw chained ∧ targetBound chained) := by
  and_intros
  all_goals first
    | decide
    | (unfold recordLaw DomainRecord.inRange; decide)
    | (unfold definedLaw; decide)
    | (unfold targetBound; decide)

/-- R76: D1's weight of 8 is back in time for D2, which its arrival releases, and the event grants both. -/
theorem test_rampGrant_chain :
    (next? (exec .rampGrant chained)).map (fun t => ((t.engine 0).state, (t.engine 1).state, t.freeUnits, t.rampQueue)) =
      some (.clockUp, .settle, 7, []) := by decide

theorem test_ReportGrantsTheList_hypotheses :
    (leased.setReport 0 (some .run)).resetHeld = false ∧ (leased.setReport 0 (some .run)).report 0 = some .run ∧
    ((leased.setReport 0 (some .run)).list 0).Nodup := by decide

theorem test_TickLowersEveryCountdown_hypotheses :
    leased.resetHeld = false ∧ leased.lease 0 = some leaseA ∧ leaseA.state = .held (some { left := 1, since := .untouched }) ∧
    (SinceTick.untouched ≠ .ahead ∧ SinceTick.untouched ≠ .passed) ∧
    ({ leased with resetHeld := true } : State).resetHeld = true := by decide

theorem test_ClaimAndExpiryAtOneTickEndAsR45Says_hypotheses :
    (leased.resetHeld = false ∧ leased.executes 1 1 = true ∧ leased.partState = .run ∧
      leased.named handleA = some leaseA ∧ leaseA.holder = 1 ∧
      leaseA.state = .held (some { left := 1, since := .untouched }) ∧
      leaseA.term = .timed 65535 ∧ Term.timed 65535 = .timed (if 0 = 0 then 65535 else 0)) ∧
    (watching.resetHeld = false ∧ watching.executes 2 1 = true ∧
      watching.named handleA = some { leaseA with holder := 2, term := .watched 65535 15, state := heldAt 1 } ∧
      Term.watched 1 15 = .watched (if 1 = 0 then 65535 else 1) 15) ∧
    ((standingAt 1 .loaded).named handleA = some { leaseA with state := marked 1 .loaded } ∧
      (standingAt 2 .untouched).named handleA = some { leaseA with state := marked 2 .untouched } ∧
      (standingAt 1 .loaded).executes 1 1 = true ∧ (standingAt 2 .untouched).executes 1 1 = true) ∧
    (standingAt 1 .ahead).lease 0 = some { leaseA with state := .held (some { left := 1, since := .ahead }) } ∧
    (standingAt 1 .passed).lease 0 = some { leaseA with state := .held (some { left := 1, since := .passed }) } := by decide

theorem test_ResetAndItsRelease_hypotheses :
    ({ State.reset with resetHeld := true } : State).resetHeld = true ∧ State.reset.resetHeld = false := by decide

/-- A reset is held, and a tick waits. -/
def inReset : State := { State.reset with resetHeld := true, pgood := Vector.replicate 15 true, pending := [.tick] }

theorem test_ResetAndItsRelease_heldReset : heldResetLaw inReset ∧ ∃ t, step inReset = .next t :=
  ⟨fun _ => rfl, _, rfl⟩

theorem test_OutputsAndAttentionFollowTheState_heldReset : heldResetLaw inReset ∧ inReset.resetHeld = true :=
  ⟨fun _ => rfl, rfl⟩

/-! ### The laws hold in a state that runs -/

/-- leased, with a command waiting. -/
def waiting : State := { leased with pending := [.tick] }

theorem waiting_lease (i : SlotId) : waiting.lease i = if i = 0 then some leaseA else none := by revert i; decide

theorem test_step_of_waiting : ∃ t, step waiting = .next t := ⟨_, rfl⟩

theorem test_ConfigurationAndPortsStayInRange_hypotheses : configurationLaw waiting := by
  unfold configurationLaw recordLaw DomainRecord.inRange templateLaw windowLaw; decide

theorem test_RampLawsAreKept_hypotheses : listLaw waiting ∧ emptyLaw waiting ∧ setupLaw waiting ∧ rampLaw waiting := by
  unfold listLaw emptyLaw setupLaw rampLaw budgetLaw queueLaw; decide

theorem test_NoticeQueuesNeverRepeat_hypotheses : noticeLaw waiting ∧ quotaLaw waiting := by
  unfold noticeLaw quotaLaw; decide

theorem test_LeaseTableLawsAreKept_hypotheses : templateLaw waiting ∧ tableLaw waiting := by
  refine ⟨by unfold templateLaw; decide, by unfold listLaw; decide, by unfold emptyLaw; decide, by unfold usersLaw; decide,
    by unfold quotaLaw; decide, by unfold linkLaw; decide, fun i l hl => ?_⟩
  rw [waiting_lease] at hl
  split at hl
  · cases hl
    exact ⟨by decide, by unfold Term.inRange; decide, by decide, rfl, rfl, by simp⟩
  · cases hl

theorem test_FloorsAndFaultsAreKept_hypotheses :
    recordLaw waiting ∧ definedLaw waiting ∧ faultLaw waiting ∧ floorLaw waiting := by
  unfold recordLaw DomainRecord.inRange definedLaw faultLaw floorLaw; decide

theorem test_TimersAndLevelsAreKept_hypotheses :
    (recordLaw waiting ∧ definedLaw waiting) ∧ (setupLaw waiting ∧ queueLaw waiting) ∧ timerLaw waiting ∧ levelLaw waiting := by
  unfold recordLaw DomainRecord.inRange definedLaw setupLaw queueLaw timerLaw levelLaw; decide

theorem test_WantedLevelsStayWithinTheMaximum_hypotheses :
    startLaw waiting ∧ emptyLaw waiting ∧ listLaw waiting ∧ setupLaw waiting ∧ wantedLaw waiting := by
  unfold startLaw emptyLaw listLaw setupLaw wantedLaw; decide

theorem test_GrantedLevelsStayAssured_hypotheses : engineLaw waiting ∧ grantedLaw waiting := by
  unfold engineLaw definedLaw timerLaw levelLaw setupLaw stoppingLaw rampLaw budgetLaw queueLaw faultLaw floorLaw grantedLaw; decide

theorem test_ConfigurationAndPortsStayInRange_ports : listLaw waiting ∧ replyLaw waiting ∧ sequenceLaw waiting := by
  unfold listLaw replyLaw sequenceLaw; decide

theorem test_BaselinesAndStoppingFollowTheEngines_hypotheses :
    detectorLaw { listening with pending := [.tick] } ∧ ∃ t, step { listening with pending := [.tick] } = .next t :=
  ⟨by unfold detectorLaw; decide, _, rfl⟩

theorem test_BaselinesAndStoppingFollowTheEngines_stopping :
    stoppingLaw { put 0 .retain none stopping with pending := [.tick] } := by
  unfold stoppingLaw; decide

end Sys2Proof.Tests
end

section
/-! The tree and the target level: children lie above their parent's number, so the bounds of the walks are never reached
(R1, R13, R14). -/

namespace Sys2Proof.Machine

/-! ### Levels -/

theorem ne_off_iff {l : Level} : l ≠ .off ↔ 1 ≤ l.num := by cases l <;> decide

theorem num_higher (a b : Level) : (Level.higher a b).num = max a.num b.num := by
  unfold Level.higher
  split <;> omega

/-- 00 §6.3: the greatest of some levels is the least that none of them is above. -/
theorem greatest_le_iff (l : List Level) (n : Nat) : (Level.greatest l).num ≤ n ↔ ∀ a ∈ l, a.num ≤ n := by
  induction l with
  | nil => simp [Level.greatest, Level.num]
  | cons a l ih => simp [Level.greatest, num_higher, ih]

theorem le_greatest {l : List Level} {a : Level} (h : a ∈ l) : a.num ≤ (Level.greatest l).num :=
  (greatest_le_iff l _).1 le_rfl a h

/-! ### The tree -/

theorem val_managedDomain (d : Managed) : (managedDomain d).val = d.val + 1 := rfl

theorem mem_allManaged (d : Managed) : d ∈ allManaged := by revert d; decide

theorem parent?_eq_some_iff (s : State) (d m : Managed) :
    s.parent? d = some m ↔ ∃ floor, s.place d = some (managedDomain m, floor) := by
  unfold State.parent?
  cases h : s.place d with
  | none => simp
  | some q => obtain ⟨p, floor⟩ := q; simp [asManaged_eq_some]

theorem parent_lt {s : State} {d m : Managed} {floor : Level} (h : s.place d = some (managedDomain m, floor)) : m < d := by
  obtain ⟨_, _, _, _, le, _⟩ := (place_eq_some_iff s d _ _).1 h
  exact le

theorem mem_children_iff_place (s : State) (p : Domain) (c : Managed) (floor : Level) :
    (c, floor) ∈ s.children p ↔ s.place c = some (p, floor) := by
  unfold State.children
  rw [List.mem_filterMap]
  constructor
  · rintro ⟨e, _, h⟩
    cases place : s.place e with
    | none => simp [place] at h
    | some q =>
      simp only [place, Option.ite_none_right_eq_some] at h
      obtain ⟨parent, same⟩ := h
      cases same
      rw [place, ← parent]
  · intro place
    exact ⟨c, mem_allManaged c, by simp [place]⟩

/-- R1: a child has a higher number than its parent. -/
theorem lt_of_mem_children {s : State} {d c : Managed} {floor : Level} (h : (c, floor) ∈ s.children (managedDomain d)) :
    d < c :=
  parent_lt ((mem_children_iff_place s _ c floor).1 h)

theorem defined_iff (s : State) (p : Domain) : s.defined p = true ↔ p = 0 ∨ ∃ m, p = managedDomain m ∧ s.record m ≠ none := by
  unfold State.defined
  cases h : asManaged p with
  | none => simp [(asManaged_eq_none p).1 h]
  | some m =>
    have eq := asManaged_eq_some.1 h
    have root : p ≠ 0 := fun h0 => by simp [(asManaged_eq_none p).2 h0] at h
    simp only [root, false_or]
    constructor
    · intro some; exact ⟨m, eq, by simpa [Option.isSome_iff_ne_none] using some⟩
    · rintro ⟨m', eq', some⟩
      rw [eq', asManaged_managedDomain] at h
      cases h
      simpa [Option.isSome_iff_ne_none] using some

/-- R1, R9, R13: the children of a domain and their floors. -/
theorem mem_children_iff (s : State) (p : Domain) (c : Managed) (floor : Level) : (c, floor) ∈ s.children p ↔
    ∃ r, s.record c = some r ∧ r.parent = p ∧ r.floor = floor ∧ p < managedDomain c ∧
      (p = 0 ∨ ∃ m, p = managedDomain m ∧ s.record m ≠ none) := by
  rw [mem_children_iff_place, place_eq_some_iff]
  simp only [defined_iff, Fin.lt_def, val_managedDomain, Nat.lt_succ_iff]

/-- An argument from the leaves of the tree to its root: every child has a higher number. -/
theorem leavesUp {P : Managed → Prop} (each : ∀ d, (∀ c, d < c → P c) → P d) (d : Managed) : P d :=
  WellFoundedGT.induction d each

/-! ### The target level -/

theorem up_eq_not_down (e : Engine) : e.up = !e.down := by
  unfold Engine.up Engine.down
  cases e.state <;> rfl

/-- A walk that may go 15 - d levels down from d is not cut short. -/
theorem targetWithin_stable (s : State) (d : Managed) :
    ∀ n m : Nat, 15 ≤ n + d.val → 15 ≤ m + d.val → s.targetWithin n d = s.targetWithin m d := by
  induction d using leavesUp with
  | each d ih =>
    intro n m hn hm
    obtain ⟨n, rfl⟩ : ∃ k, n = k + 1 := ⟨n - 1, by omega⟩
    obtain ⟨m, rfl⟩ : ∃ k, m = k + 1 := ⟨m - 1, by omega⟩
    have same : ∀ c ∈ s.children (managedDomain d),
        (s.targetWithin n c.1 != .off || (s.engine c.1).up) = (s.targetWithin m c.1 != .off || (s.engine c.1).up) := by
      intro c hc
      have above : d.val < c.1.val := lt_of_mem_children hc
      rw [ih c.1 (lt_of_mem_children hc) n m (by omega) (by omega)]
    simp only [State.targetWithin, List.filter_congr same]

/-- R13, R14: the target of a domain, from its leases and its children. -/
theorem target_eq (s : State) (d : Managed) : s.target d =
    if s.faultAtOrAbove d = true then .off
    else Level.greatest ((s.list d).filterMap (fun i => (s.lease i).map Lease.wanted) ++
      ((s.children (managedDomain d)).filter fun c => s.target c.1 != .off || !(s.engine c.1).down).map Prod.snd) := by
  have same : ∀ c ∈ s.children (managedDomain d),
      (s.targetWithin 14 c.1 != .off || (s.engine c.1).up) = (s.target c.1 != .off || !(s.engine c.1).down) := by
    intro c hc
    have above : d.val < c.1.val := lt_of_mem_children hc
    have deep : 15 ≤ Config.treeDepth + c.1.val := Nat.le_add_right 15 _
    rw [up_eq_not_down, State.target, targetWithin_stable s c.1 14 _ (by omega) deep]
  simp only [← List.filter_congr same]
  rfl

/-- Settles O39: the children are those of `mem_children_iff`, and `target_eq` is the recursion of the target. -/
theorem targetIsTheGreatestClaim : Obligations.TargetIsTheGreatestClaim :=
  ⟨mem_children_iff, target_eq⟩

end Sys2Proof.Machine
end

section
/-! The domain outputs follow the table, their changes keep ISO safe, and the attention outputs follow the queues
(R49, R50, R135, R202). -/

namespace Sys2Proof.Machine

/-! ### The outputs of a state -/

theorem outputs_of_undefined {s : State} {d : Managed} (h : s.record d = none) : s.outputs d = Outputs.off := by
  simp [State.outputs, h]

theorem upTo_eq_tableOutputs (e : EngineState) (maxLevel : Level) : e.outputs.upTo maxLevel = tableOutputs e maxLevel := by
  cases e <;> cases maxLevel <;> rfl

/-- R49: a state that the maximum level reaches releases ISO only with rail, clock and reset in order. -/
theorem safe_tableOutputs {e : EngineState} {maxLevel : Level} (h : e.needs.num ≤ maxLevel.num) :
    (tableOutputs e maxLevel).safe = true := by
  revert h
  cases e <;> cases maxLevel <;> decide

theorem outputs_of_defined {s : State} {d : Managed} {r : DomainRecord} (h : s.record d = some r) :
    s.outputs d = tableOutputs (s.engine d).state r.maxLevel := by
  simp [State.outputs, h, upTo_eq_tableOutputs]

theorem safe_outputs {s : State} (h : levelLaw s) (d : Managed) : (s.outputs d).safe = true := by
  cases record : s.record d with
  | none => rw [outputs_of_undefined record]; rfl
  | some r => rw [outputs_of_defined record]; exact safe_tableOutputs (h d r record)

/-! ### The changes of an event (R50) -/

theorem map_filter_cons {α β : Type} (p : α → Bool) (f : α → β) (a : α) (l : List α) :
    ((a :: l).filter p).map f = (if p a = true then [f a] else []) ++ (l.filter p).map f := by
  rw [List.filter_cons]
  split <;> rfl

/-- R50: the changes are those of the lines that differ, in the order of the table. -/
theorem outputChanges_eq (d : Managed) (a b : Outputs) :
    outputChanges d a b =
      (changeOrder.filter fun c => a.line c.1 != c.2 && b.line c.1 == c.2).map fun c => ⟨d, c.1, c.2⟩ := by
  simp only [changeOrder, map_filter_cons, outputChanges, Outputs.line, List.append_assoc, List.filter_nil, List.map_nil,
    List.append_nil, Bool.bne_true, Bool.bne_false, beq_true, beq_false]

/-- Every initial part of the changes is safe, and all of them lead from o to b. -/
def Leads (o : Outputs) (changes : List PinChange) (b : Outputs) : Prop :=
  (∀ n, ((changes.take n).foldl Outputs.change o).safe = true) ∧ changes.foldl Outputs.change o = b

theorem leads_nil {o : Outputs} (h : o.safe = true) : Leads o [] o := ⟨by simp [h], rfl⟩

/-- One change that is made or not leads on to what follows it. -/
theorem leads_stage {o b : Outputs} {made : Bool} {c : PinChange} {later : List PinChange} (o' : Outputs)
    (safe : o.safe = true) (next : (if made = true then o.change c else o) = o') (h : Leads o' later b) :
    Leads o ((if made = true then [c] else []) ++ later) b := by
  subst o'
  cases made with
  | false => exact h
  | true =>
    refine ⟨fun n => ?_, h.2⟩
    cases n with
    | zero => exact safe
    | succ n => exact h.1 n

/-- R49, R50: ISO is asserted before the lines that close the domain change, and released after those that open it. -/
theorem leads_outputChanges (d : Managed) {a b : Outputs} (ha : a.safe = true) (hb : b.safe = true) :
    Leads a (outputChanges d a b) b := by
  obtain ⟨r, x, i, c, v⟩ := a
  obtain ⟨r', x', i', c', v'⟩ := b
  simp only [outputChanges_eq, changeOrder, map_filter_cons, Outputs.line, List.filter_nil, List.map_nil]
  refine
    leads_stage ⟨r, x, i, c, v && v'⟩ ?_ (by cases v <;> cases v' <;> rfl) <|
    leads_stage ⟨r, x, i || i', c, v && v'⟩ ?_ (by cases i <;> cases i' <;> rfl) <|
    leads_stage ⟨r, x, i || i', c && c', v && v'⟩ ?_ (by cases c <;> cases c' <;> rfl) <|
    leads_stage ⟨r, x || x', i || i', c && c', v && v'⟩ ?_ (by cases x <;> cases x' <;> rfl) <|
    leads_stage ⟨r && r', x || x', i || i', c && c', v && v'⟩ ?_ (by cases r <;> cases r' <;> rfl) <|
    leads_stage ⟨r', x || x', i || i', c && c', v && v'⟩ ?_ (by cases r <;> cases r' <;> rfl) <|
    leads_stage ⟨r', x', i || i', c && c', v && v'⟩ ?_ (by cases x <;> cases x' <;> rfl) <|
    leads_stage ⟨r', x', i || i', c', v && v'⟩ ?_ (by cases c <;> cases c' <;> rfl) <|
    leads_stage ⟨r', x', i', c', v && v'⟩ ?_ (by cases i <;> cases i' <;> rfl) <|
    leads_stage ⟨r', x', i', c', v'⟩ ?_ (by cases v <;> cases v' <;> rfl) <|
    leads_nil hb
  -- the ten stages are safe: by the levels of ISO in a and in b, the lines that must stand do so in both or in one
  all_goals
    simp only [Outputs.safe] at ha hb ⊢
    cases i <;> cases i' <;> simp_all

/-- R188, R202: while a part reset is held, the outputs are those of the reset state. -/
theorem reads_of_heldReset {s : State} (h : heldResetLaw s) (held : s.resetHeld = true) :
    (∀ a, s.queue a = []) ∧ ∀ d, s.outputs d = Outputs.off := by
  have reset := h held
  have queues : s.queues = Vector.replicate 4 [] := congrArg State.queues reset
  have records : s.records = Vector.replicate 15 none := congrArg State.records reset
  exact ⟨fun a => by simp [State.queue, queues], fun d => outputs_of_undefined (by simp [State.record, records])⟩

theorem attention_iff (s : State) (a : Agent) : s.attention a = true ↔ s.queue a ≠ [] := by
  simp [State.attention]

theorem atnPin_low_iff (s : State) (a : Agent) : s.atnPin a = false ↔ s.queue a ≠ [] := by
  simp [State.atnPin, attention_iff]

/-- R202: all pins but DRST are high while asserted. -/
theorem domainPin_eq (s : State) (d : Managed) (line : OutputLine) :
    s.domainPin d line = ((s.outputs d).line line != (line == .drst)) := by
  cases line with
  | drst => exact (Bool.bne_true _).symm
  | _ => exact (Bool.bne_false _).symm

/-- Settles O40: the table, the order of the changes, their safety, and the pins, each by its lemma. -/
theorem outputsAndAttentionFollowTheState : Obligations.OutputsAndAttentionFollowTheState := by
  refine ⟨fun s d => ⟨outputs_of_undefined, fun r => outputs_of_defined, fun h => safe_outputs h d⟩, outputChanges_eq,
    fun d a b n ha hb => ?_, fun s a d => ⟨attention_iff s a, atnPin_low_iff s a, domainPin_eq s d, fun h held => ?_⟩⟩
  · obtain ⟨safe, last⟩ := leads_outputChanges d ha hb
    exact ⟨last, safe n⟩
  · obtain ⟨queues, outputs⟩ := reads_of_heldReset h held
    refine ⟨by simp [State.atnPin, State.attention, queues], ?_⟩
    simp [domainPin_eq, outputs, Outputs.off, Outputs.line]

end Sys2Proof.Machine
end

section
/-! What an operation of the lease table that makes no lease may do: every law of the leases is kept along it
(R25, R36, R39, R43). -/

namespace Sys2Proof.Machine

/-- From s to t no lease is made: every lease of t stood in its slot, on its domain, and lives only if it did, a level that
it newly wants being within its domain's maximum level. -/
structure LeasesFrom (s t : State) : Prop where
  side : leaseSide s t
  ranges : ∀ w, (t.window w).range = (s.window w).range
  lists : ∀ d, (t.list d).Sublist (s.list d)
  law : listLaw s → listLaw t
  leases : ∀ i, ∀ l' ∈ t.lease i, ∃ l ∈ s.lease i, l'.domain = l.domain ∧ (l'.live = true → l.live = true) ∧
    (l'.wanted = l.wanted ∨ ∀ r ∈ s.record l.domain, l'.wanted.num ≤ r.maxLevel.num)

theorem leaseSide.record {s t : State} (h : leaseSide s t) : t.record = s.record := by
  obtain ⟨⟨_, _, _, _, _, rfl⟩, _⟩ := h
  rfl

theorem LeasesFrom.refl (s : State) : LeasesFrom s s :=
  ⟨.refl s, fun _ => rfl, fun _ => .refl _, id, fun _ l h => ⟨l, h, rfl, id, .inl rfl⟩⟩

theorem LeasesFrom.trans {s t u : State} (h : LeasesFrom s t) (k : LeasesFrom t u) : LeasesFrom s u := by
  refine ⟨h.side.trans k.side, fun w => (k.ranges w).trans (h.ranges w), fun d => (k.lists d).trans (h.lists d),
    k.law ∘ h.law, fun i l'' h'' => ?_⟩
  obtain ⟨l', h', domain', live', wanted'⟩ := k.leases i l'' h''
  obtain ⟨l, hl, domain, live, wanted⟩ := h.leases i l' h'
  refine ⟨l, hl, domain'.trans domain, live ∘ live', ?_⟩
  rw [h.side.record, domain] at wanted'
  rcases wanted' with eq | within
  · rw [eq]; exact wanted
  · exact .inr within

theorem LeasesFrom.foldl {α : Type} (f : State → α → State) (each : ∀ s a, LeasesFrom s (f s a)) (l : List α) (s : State) :
    LeasesFrom s (l.foldl f s) :=
  foldl_relation LeasesFrom .refl (fun _ _ _ h k => h.trans k) f each l s

/-- Where lists and windows' ranges stay, and every slot's lease stays or is rewritten on its domain, as live as it was. -/
theorem leasesFrom_of_rewrites {s t : State} (side : leaseSide s t) (windows : t.windows = s.windows)
    (lists : t.lists = s.lists)
    (leases : ∀ i, t.lease i = s.lease i ∨ ∃ l l', s.lease i = some l ∧ t.lease i = some l' ∧ l'.domain = l.domain ∧
      l'.live = l.live ∧ (l'.wanted = l.wanted ∨ ∀ r ∈ s.record l.domain, l'.wanted.num ≤ r.maxLevel.num)) :
    LeasesFrom s t := by
  have list : t.list = s.list := by funext d; simp [State.list, lists]
  have liveOn : t.liveOn = s.liveOn := by
    funext d i
    unfold State.liveOn
    rcases leases i with eq | ⟨l, l', hl, hl', domain, live, _⟩
    · rw [eq]
    · simp [hl, hl', domain, live]
  refine ⟨side, fun w => by simp [State.window, windows], fun d => by rw [list], fun h => ?_, fun i l' h' => ?_⟩
  · unfold listLaw
    rw [list, liveOn]
    exact h
  · rcases leases i with eq | ⟨l, k, hl, hk, domain, live, wanted⟩
    · exact ⟨l', by rwa [← eq], rfl, id, .inl rfl⟩
    · cases hk.symm.trans h'
      exact ⟨l, hl, domain, fun h => live ▸ h, wanted⟩

/-- Queues and the links of wake records are no part of the leases. -/
theorem leasesFrom_of_slots {s t : State} (side : leaseSide s t) (windows : t.windows = s.windows) (lists : t.lists = s.lists)
    (slots : t.slots = s.slots) : LeasesFrom s t :=
  leasesFrom_of_rewrites side windows lists fun i => .inl (by simp [State.lease, State.slot, slots])

theorem lease_setLease (s : State) (i j : SlotId) (l : Lease) :
    (s.setLease i l).lease j = if j = i then some l else s.lease j := by
  simp only [State.setLease, State.lease, slot_setSlot]
  split <;> rfl

/-- A lease is rewritten on its domain, as live as it was. -/
theorem leasesFrom_setLease {s : State} {i : SlotId} {l l' : Lease} (h : s.lease i = some l) (domain : l'.domain = l.domain)
    (live : l'.live = l.live) (wanted : l'.wanted = l.wanted ∨ ∀ r ∈ s.record l.domain, l'.wanted.num ≤ r.maxLevel.num) :
    LeasesFrom s (s.setLease i l') := by
  refine leasesFrom_of_rewrites (leaseSide_setLease i l' s) rfl rfl fun j => ?_
  rw [lease_setLease]
  split
  · subst j; exact .inr ⟨l, l', h, rfl, domain, live, wanted⟩
  · exact .inl rfl

theorem leasesFrom_post (a : Agent) (n : Notice) (s : State) : LeasesFrom s (s.post a n) :=
  leasesFrom_of_slots (leaseSide_post a n s) rfl rfl rfl

/-- Some leases end or are freed: the lists lose exactly the slots that lose their live lease. -/
theorem leasesFrom_of_removal {s t : State} (gone : SlotId → Bool) (side : leaseSide s t)
    (ranges : ∀ w, (t.window w).range = (s.window w).range)
    (lists : ∀ d, t.list d = (s.list d).filter fun i => !(gone i && s.liveOn d i))
    (stays : ∀ i, gone i = false → t.lease i = s.lease i)
    (goes : ∀ i, gone i = true → ∀ l' ∈ t.lease i, l'.live = false ∧ ∃ l ∈ s.lease i, l'.domain = l.domain ∧ l'.wanted = l.wanted) :
    LeasesFrom s t := by
  refine ⟨side, ranges, fun d => by rw [lists]; exact List.filter_sublist, fun law d => ?_, fun i l' h' => ?_⟩
  · obtain ⟨nodup, mem⟩ := law d
    rw [lists]
    refine ⟨nodup.filter _, fun i => ?_⟩
    rw [List.mem_filter, mem]
    cases hg : gone i with
    | false =>
      have same : t.liveOn d i = s.liveOn d i := by unfold State.liveOn; rw [stays i hg]
      simp [same]
    | true =>
      have dead : t.liveOn d i = false := by
        unfold State.liveOn
        cases hl : t.lease i with
        | none => rfl
        | some l' => simp [(goes i hg l' hl).1]
      simp [dead]
  · cases hg : gone i with
    | false => exact ⟨l', by rwa [← stays i hg], rfl, id, .inl rfl⟩
    | true =>
      obtain ⟨dead, l, hl, domain, wanted⟩ := goes i hg l' h'
      exact ⟨l, hl, domain, fun live => absurd live (by simp [dead]), .inl wanted⟩

theorem leasesFrom_withEnded (order : List SlotId) (cause : SlotId → EndCause) (s : State) :
    LeasesFrom s (withEnded order cause s) := by
  have lease : ∀ i, (withEnded order cause s).lease i = if (order.contains i && s.liveAt i) = true then
      (s.lease i).map fun l => { l with state := .ended (cause i) } else s.lease i := by
    intro i
    rw [State.lease, slot_withEnded]
    split <;> rfl
  have same : ∀ d i, (order.contains i && s.liveOn d i) = (order.contains i && s.liveAt i && s.liveOn d i) := by
    intro d i
    cases live : s.liveAt i with
    | false => simp [(not_live_reads live).1 d]
    | true => simp
  refine leasesFrom_of_removal (fun i => order.contains i && s.liveAt i) (leaseSide_withEnded order cause s)
    (fun w => by rw [window_withEnded]) (fun d => ?_) (fun i hg => ?_) (fun i hg l' h' => ?_)
  · rw [list_withEnded]
    simp only [same]
  · rw [lease, if_neg (by simp only [hg, Bool.false_eq_true, not_false_iff])]
  · rw [lease, if_pos hg] at h'
    obtain ⟨l, hl, rfl⟩ := Option.map_eq_some_iff.1 h'
    exact ⟨rfl, l, hl, rfl, rfl⟩

theorem leasesFrom_withFreed (gone : SlotId → Bool) (s : State) : LeasesFrom s (withFreed gone s) := by
  have lease : ∀ i, (withFreed gone s).lease i = if (gone i && (s.lease i).isSome) = true then none else s.lease i := by
    intro i
    rw [State.lease, slot_withFreed]
    split <;> rfl
  refine leasesFrom_of_removal gone (leaseSide_withFreed gone s)
    (fun w => by rw [window_withFreed]) (fun d => by rw [list_withFreed]) (fun i hg => ?_) (fun i hg l' h' => ?_)
  · rw [lease, if_neg (by simp [hg])]
  · rw [lease] at h'
    cases hl : s.lease i <;> simp [hg, hl] at h'

theorem leasesFrom_endLease (i : SlotId) (cause : EndCause) (s : State) : LeasesFrom s (endLease i cause s) := by
  cases live : s.liveAt i with
  | false => rw [endLease_not_live cause live]; exact .refl s
  | true =>
    cases h : s.lease i with
    | none => simp [State.liveAt, h] at live
    | some l =>
      rw [endLease_eq_withEnded cause h (by simpa [State.liveAt, h] using live)]
      exact leasesFrom_withEnded _ _ s

theorem leasesFrom_freeSlot (i : SlotId) (s : State) : LeasesFrom s (freeSlot i s) := by
  cases h : s.lease i with
  | none => rw [freeSlot_free h]; exact .refl s
  | some l => rw [freeSlot_eq_withFreed h]; exact leasesFrom_withFreed _ s

theorem leasesFrom_freeSlots (is : List SlotId) (s : State) : LeasesFrom s (freeSlots is s) :=
  .foldl _ (fun s i => leasesFrom_freeSlot i s) is s

theorem leasesFrom_endAll (is : List SlotId) (cause : EndCause) (s : State) : LeasesFrom s (endAll is cause s) :=
  .foldl _ (fun s i => leasesFrom_endLease i cause s) is s

theorem leasesFrom_detachAgent (a : Agent) (s : State) : LeasesFrom s (detachAgent a s) :=
  (leasesFrom_freeSlots _ s).trans (leasesFrom_of_slots (leaseSide_of_eq ⟨_, _, _, _, rfl⟩) rfl rfl rfl)

/-! ### Changes of one lease -/

theorem live_load (time : Option Nat) (l : Lease) : ({ l with state := l.state.load time } : Lease).live = l.live := by
  unfold Lease.live
  cases l.state <;> rfl

theorem live_settle (l : Lease) : ({ l with state := l.state.settle } : Lease).live = l.live := by
  unfold Lease.live
  cases l.state <;> rfl

/-- R31: a renewal keeps domain, wanted level and liveness. -/
theorem leasesFrom_renew {s : State} {i : SlotId} {l : Lease} (h : s.lease i = some l) (time : Option Nat) :
    LeasesFrom s (s.setLease i (l.renew time)) :=
  leasesFrom_setLease h rfl (live_load _ { l with term := l.term.renewed time }) (.inl rfl)

theorem leasesFrom_reportLease (assured : Level) (i : SlotId) (s : State) : LeasesFrom s (reportLease assured i s) := by
  unfold reportLease
  split
  · rename_i l h
    split
    · rename_i pending
      split
      · have granted : l.grant.live = l.live := by simp [Lease.live, Lease.grant, pending]
        exact (leasesFrom_setLease (l' := l.grant) h rfl granted (.inl rfl)).trans (leasesFrom_post _ _ _)
      · exact .refl s
    · split
      · exact (leasesFrom_setLease (l' := { l with granted := some (l.wanted.lower assured) }) h rfl rfl (.inl rfl)).trans
          (leasesFrom_post _ _ _)
      · exact .refl s
    · exact .refl s
  · exact .refl s

theorem leasesFrom_reloadClaim (w : WindowId) (s : State) : LeasesFrom s (reloadClaim w s) := by
  refine .foldl _ (fun s i => ?_) _ s
  unfold reloadAt
  split
  · rename_i l h
    split
    · exact leasesFrom_setLease h rfl (live_load _ l) (.inl rfl)
    · exact .refl s
  · exact .refl s

/-- R103, R104: the reload claims of an address. -/
theorem leasesFrom_matchAddress (a : Address) (s : State) : LeasesFrom s (matchAddress a s) :=
  .foldl _ (fun s w => leasesFrom_reloadClaim w s) _ s

/-- A HELD lease goes on with another countdown. -/
theorem leasesFrom_countdown {s : State} {i : SlotId} {l : Lease} {c : Option Countdown} (h : s.lease i = some l)
    (held : l.state = .held c) (c' : Option Countdown) : LeasesFrom s (s.setLease i { l with state := .held c' }) :=
  leasesFrom_setLease h rfl (by simp [Lease.live, held]) (.inl rfl)

theorem leasesFrom_tickLease (s : State) (i : SlotId) : LeasesFrom s (tickLease s i) := by
  unfold tickLease
  split
  · rename_i l h
    split
    · rename_i held
      split
      · exact leasesFrom_endLease _ _ _
      · exact leasesFrom_countdown h held _
    · exact .refl s
  · exact .refl s

/-- R30: the lease table's share of a tick. -/
theorem leasesFrom_tickLeases (s : State) : LeasesFrom s (tickLeases s) := .foldl _ leasesFrom_tickLease _ s

theorem leasesFrom_settleMarks (s : State) : LeasesFrom s (settleMarks s) := by
  refine leasesFrom_of_rewrites (leaseSide_settleMarks s) (by simp only [settleMarks]) (by simp only [settleMarks]) fun i => ?_
  rw [lease_settleMarks]
  cases s.lease i with
  | none => exact .inl rfl
  | some l => exact .inr ⟨l, _, rfl, rfl, rfl, live_settle l, .inl rfl⟩

theorem leasesFrom_takeExpiry (i : SlotId) (s : State) : LeasesFrom s (takeExpiry i s) := by
  unfold takeExpiry
  split
  · rename_i l h
    split
    · rename_i held
      split
      · exact leasesFrom_countdown h held _
      · split
        · exact leasesFrom_endLease _ _ _
        · exact .refl s
    · exact .refl s
  · exact .refl s

theorem modify_domain (l : Lease) (level assured : Level) : (l.modify level assured).domain = l.domain := by
  unfold Lease.modify Lease.relevel
  split
  · rfl
  · split
    · split <;> rfl
    · rfl
    · rfl

theorem modify_live (l : Lease) (level assured : Level) : (l.modify level assured).live = l.live := by
  unfold Lease.modify Lease.relevel
  split
  · rfl
  · split
    · rename_i pending
      split <;> simp [Lease.live, Lease.grant, pending]
    · rename_i held; simp [Lease.live, held]
    · rfl

theorem modify_wanted (l : Lease) (level assured : Level) :
    (l.modify level assured).wanted = l.wanted ∨ (l.modify level assured).wanted = level := by
  unfold Lease.modify Lease.relevel
  split
  · exact .inl rfl
  · split
    · split <;> exact .inr rfl
    · exact .inr rfl
    · exact .inl rfl

/-- R34, R158, R159: MODIFY to a level that the maximum level admits. -/
theorem leasesFrom_modifyLease {s : State} {i : SlotId} {l : Lease} (h : s.lease i = some l) {level : Level}
    (within : ∀ r ∈ s.record l.domain, level.num ≤ r.maxLevel.num) : LeasesFrom s (modifyLease i level l s).1 := by
  have changed : LeasesFrom s (s.setLease i (l.modify level (s.assuredOf l.domain))) := by
    refine leasesFrom_setLease h (modify_domain _ _ _) (modify_live _ _ _) ?_
    rcases modify_wanted l level (s.assuredOf l.domain) with eq | eq
    · exact .inl eq
    · exact .inr (by rwa [eq])
  unfold modifyLease accept
  dsimp only
  split
  · split
    · exact changed.trans (leasesFrom_of_slots (leaseSide_relevelQueued _ _ _ _) rfl rfl rfl)
    · exact changed
  · exact changed

end Sys2Proof.Machine
end

section
/-! What the engines can do, said once: every event of the engines but a fault event is a chain of moves of single engines,
each with the conditions under which the rules let it happen (R51 to R65, R75 to R78, R88, R95). -/

namespace Sys2Proof.Machine

/-- R52: engine d stands at a level and has handed its report. -/
def arrived (d : Managed) (level : Level) (s : State) : State :=
  (s.moveEngine d level.engineState none).setReport d (some level)

/-- The arrivals that take no weight and leave no queue, with what the rules ask for (R53, R55, R59 to R64). -/
inductive Reaches (s : State) (d : Managed) : Level → Prop
  | clock (at_ : (s.engine d).state = .clockUp) (sampled : s.ckokSampled d = true) : Reaches s d .run
  | boostAtOnce {r : DomainRecord} (record : s.record d = some r) (at_ : (s.engine d).state = .run)
      (above : Level.run.num < (s.target d).num) (settle : r.boostSettle = some 0) : Reaches s d .boost
  | boost (at_ : (s.engine d).state = .boostUp) : Reaches s d .boost
  | runAtOnce {r : DomainRecord} (record : s.record d = some r) (at_ : (s.engine d).state = .boost)
      (below : (s.target d).num < Level.boost.num) (settle : r.boostSettle = some 0) : Reaches s d .run
  | run (at_ : (s.engine d).state = .boostDown) : Reaches s d .run
  | retain {r : DomainRecord} (record : s.record d = some r) (at_ : (s.engine d).state = .run)
      (below : (s.target d).num < Level.run.num) : Reaches s d .retain
  | drained (at_ : (s.engine d).state = .draining) : Reaches s d .off
  | stopWaiting (at_ : (s.engine d).state = .waitParent) : Reaches s d .off

/-- One move of engine d; the pin log, which no law reads, may be written at any time. -/
inductive Move (d : Managed) : State → State → Prop
  | log {s : State} (pinLog : List PinChange) : Move d s { s with pinLog := pinLog }
  /-- R54 -/
  | rise {s : State} {r : DomainRecord} (record : s.record d = some r) (at_ : (s.engine d).state = .off)
      (wanted : s.target d ≠ .off) : Move d s (s.moveEngine d .waitParent none)
  /-- R55, R75 -/
  | queue {s : State} {p : Domain} {floor : Level} (at_ : (s.engine d).state = .waitParent)
      (place : s.place d = some (p, floor)) (met : floor.num ≤ (s.assured p).num) : Move d s (enterQueue d s)
  /-- R76 -/
  | grant {s : State} {rest : List Managed} (head : s.rampQueue = d :: rest) (fits : s.weight d ≤ s.freeUnits) :
      Move d s (State.moveEngine d .railUp ((s.record d).map DomainRecord.pgoodTimeout)
        { s with rampQueue := rest, freeUnits := s.freeUnits - s.weight d })
  /-- R57 -/
  | settle {s : State} {r : DomainRecord} (record : s.record d = some r) (at_ : (s.engine d).state = .railUp)
      (time : r.settle ≠ 0) : Move d s (s.moveEngine d .settle (some r.settle))
  /-- R58, R77 -/
  | settled {s : State} (at_ : (s.engine d).state.holdsWeight = true) : Move d s (arrived d .retain (returnWeight d s))
  /-- R59 -/
  | clockUp {s : State} {r : DomainRecord} {time : Nat} (record : s.record d = some r)
      (at_ : (s.engine d).state = .retain) (above : Level.retain.num < (s.target d).num)
      (has : r.clockTimeout = some time) : Move d s (s.moveEngine d .clockUp (some time))
  /-- R60 -/
  | boostUp {s : State} {r : DomainRecord} {time : Nat} (record : s.record d = some r)
      (at_ : (s.engine d).state = .run) (above : Level.run.num < (s.target d).num)
      (has : r.boostSettle = some (time + 1)) : Move d s (s.moveEngine d .boostUp (some (time + 1)))
  /-- R61 -/
  | boostDown {s : State} {r : DomainRecord} {time : Nat} (record : s.record d = some r)
      (at_ : (s.engine d).state = .boost) (below : (s.target d).num < Level.boost.num)
      (has : r.boostSettle = some (time + 1)) : Move d s (s.moveEngine d .boostDown (some (time + 1)))
  /-- R63, R64 -/
  | drain {s : State} {r : DomainRecord} (record : s.record d = some r) (at_ : (s.engine d).state = .retain)
      (below : (s.target d).num < Level.retain.num) : Move d s (s.moveEngine d .draining (some r.drain))
  /-- R52 -/
  | reach {s : State} {level : Level} (reaches : Reaches s d level) : Move d s (arrived d level s)
  /-- R56, R78 -/
  | withdraw {s : State} (at_ : (s.engine d).state = .waitBudget) : Move d s (arrived d .off (withdraw d s))
  /-- R88 -/
  | complete {s : State} (at_ : (s.engine d).state = .fault) : Move d s (completeDrain d s)
  /-- R95 -/
  | clear {s : State} (at_ : (s.engine d).state = .fault) (drains : s.drainBelow d = false) :
      Move d s (arrived d .off (s.setEngine d { s.engine d with drainComplete := false }))

/-- A chain of moves of any engines. -/
abbrev Moves (s t : State) : Prop := Relation.ReflTransGen (fun s t => ∃ d, Move d s t) s t

theorem Move.moves {d : Managed} {s t : State} (h : Move d s t) : Moves s t := .single ⟨d, h⟩

/-- What every move keeps, every chain of moves keeps. -/
theorem Moves.keeps {P : State → Prop} (each : ∀ d s t, Move d s t → P s → P t) {s t : State} (h : Moves s t) :
    P s → P t := by
  induction h with
  | refl => exact id
  | tail _ last ih =>
    obtain ⟨d, last⟩ := last
    exact fun hs => each d _ _ last (ih hs)

/-! ### What no move touches -/

/-- From s to t only engines, reports, free units, the ramp queue and the pin log may differ. -/
def moveSide (s t : State) : Prop :=
  ∃ engines reports freeUnits rampQueue pinLog, t = { s with
    engines := engines, reports := reports, freeUnits := freeUnits, rampQueue := rampQueue, pinLog := pinLog }

theorem moveSide.refl (s : State) : moveSide s s := ⟨_, _, _, _, _, rfl⟩

theorem moveSide.trans {s t u : State} (h : moveSide s t) (k : moveSide t u) : moveSide s u := by
  obtain ⟨_, _, _, _, _, rfl⟩ := h
  obtain ⟨_, _, _, _, _, rfl⟩ := k
  exact ⟨_, _, _, _, _, rfl⟩

theorem Move.side {d : Managed} {s t : State} (h : Move d s t) : moveSide s t := by
  cases h <;> exact ⟨_, _, _, _, _, rfl⟩

theorem Moves.side {s t : State} (h : Moves s t) : moveSide s t := by
  induction h with
  | refl => exact .refl s
  | tail _ last ih =>
    obtain ⟨d, last⟩ := last
    exact ih.trans last.side

/-! ### What a move does to the engine that moves -/

@[simp] theorem engine_moveEngine_self (s : State) (d : Managed) (st : EngineState) (n : Option Nat) :
    (s.moveEngine d st n).engine d = { s.engine d with state := st, timer := n } := by
  simp [State.moveEngine]

theorem engine_moveEngine_ne (s : State) {d e : Managed} (h : e ≠ d) (st : EngineState) (n : Option Nat) :
    (s.moveEngine d st n).engine e = s.engine e := by
  simp [State.moveEngine, engine_setEngine, h]

@[simp] theorem engine_arrived_self (s : State) (d : Managed) (level : Level) :
    (arrived d level s).engine d = { s.engine d with state := level.engineState, timer := none } := by
  simp [arrived]

theorem engine_arrived_ne (s : State) {d e : Managed} (h : e ≠ d) (level : Level) :
    (arrived d level s).engine e = s.engine e := by
  simp [arrived, engine_moveEngine_ne s h]

@[simp] theorem engine_enterQueue_self (s : State) (d : Managed) :
    (enterQueue d s).engine d = { s.engine d with state := .waitBudget, timer := none } :=
  engine_moveEngine_self s d _ _

theorem engine_enterQueue_ne (s : State) {d e : Managed} (h : e ≠ d) : (enterQueue d s).engine e = s.engine e :=
  engine_moveEngine_ne s h _ _

/-! ### The shared operations are chains of moves -/

theorem place_congr {s t : State} (h : t.record = s.record) : t.place = s.place := by
  have defined : t.defined = s.defined := by funext p; unfold State.defined; rw [h]
  funext d
  unfold State.place
  rw [h, defined]

theorem engineSide.record {s t : State} (h : engineSide s t) : t.record = s.record := by
  obtain ⟨_, _, _, _, rfl⟩ := h
  rfl

theorem assured_managedDomain (s : State) (d : Managed) : s.assured (managedDomain d) = s.assuredOf d := by
  simp [State.assured, State.assuredOf]

/-- R52: the releases of an arrival, child after child; each waits for d, whose engine stays as it is. -/
theorem moves_releaseChildren (d : Managed) (l : List (Managed × Level)) (s : State)
    (children : ∀ c ∈ l, s.place c.1 = some (managedDomain d, c.2)) : Moves s (l.foldl (releaseChild d) s) := by
  induction l generalizing s with
  | nil => exact .refl
  | cons c l ih =>
    have later : ∀ e ∈ l, (releaseChild d s c).place e.1 = some (managedDomain d, e.2) := by
      rw [place_congr (engineSide_releaseChild d s c).record]
      exact fun e he => children e (List.mem_cons_of_mem c he)
    refine Relation.ReflTransGen.trans ?_ (ih (releaseChild d s c) later)
    unfold releaseChild
    split
    · rename_i waits
      exact (Move.queue waits.1 (children c List.mem_cons_self) (by rw [assured_managedDomain]; exact waits.2)).moves
    · exact .refl

theorem moves_enterLevel (d : Managed) (level : Level) (s : State) : Moves (arrived d level s) (enterLevel d level s) :=
  moves_releaseChildren d _ _ fun c hc => (mem_children_iff_place _ _ c.1 c.2).1 hc

/-- An arrival's releases leave an engine that does not wait for its parent. -/
theorem engine_releaseChildren (d e : Managed) (l : List (Managed × Level)) (s : State)
    (h : (s.engine e).state ≠ .waitParent) : (l.foldl (releaseChild d) s).engine e = s.engine e := by
  induction l generalizing s with
  | nil => rfl
  | cons c l ih =>
    have same : (releaseChild d s c).engine e = s.engine e := by
      unfold releaseChild
      split
      · rename_i waits
        exact engine_enterQueue_ne s fun eq => h (eq ▸ waits.1)
      · rfl
    rw [List.foldl_cons, ih _ (by rwa [same]), same]

theorem engine_enterLevel_self (d : Managed) (level : Level) (s : State) :
    (enterLevel d level s).engine d = (arrived d level s).engine d :=
  engine_releaseChildren d d _ (arrived d level s) (by rw [engine_arrived_self]; cases level <;> simp [Level.engineState])

/-- R54. -/
theorem moves_beginRise {d : Managed} {s : State} {r : DomainRecord} (record : s.record d = some r)
    (at_ : (s.engine d).state = .off) (wanted : s.target d ≠ .off) : Moves s (beginRise d s) := by
  have waiting : Moves s (s.moveEngine d .waitParent none) := (Move.rise record at_ wanted).moves
  unfold beginRise
  dsimp only
  split
  · rename_i p floor place
    split
    · rename_i met
      refine waiting.tail ⟨d, Move.queue (p := p) (floor := floor) (by simp) place ?_⟩
      have apart : ∀ m, asManaged p = some m → m ≠ d := by
        rintro m hm rfl
        rw [asManaged_eq_some.1 hm] at place
        exact absurd (parent_lt place) (lt_irrefl m)
      have same : (s.moveEngine d .waitParent none).assured p = s.assured p := by
        unfold State.assured
        cases hm : asManaged p with
        | none => rfl
        | some m => dsimp only; rw [engine_moveEngine_ne s (apart m hm)]
      rwa [same]
    · exact waiting
  · exact waiting

/-- R53: the step from a level, when what an arrival does in it is a chain of moves from the arrival on. -/
theorem moves_beginStep {arrive : Level → State → State} {d : Managed} {level : Level} {s : State}
    (each : ∀ level s, Moves (arrived d level s) (arrive level s)) (at_ : (s.engine d).state = level.engineState) :
    Moves s (beginStep arrive d level s) := by
  have on : ∀ {level s}, Reaches s d level → Moves s (arrive level s) := fun h => (each _ _).head ⟨d, .reach h⟩
  unfold beginStep
  split
  · exact .refl
  · rename_i r record
    cases level with
    | off =>
      dsimp only
      split
      · rename_i wanted; exact moves_beginRise record at_ wanted
      · exact .refl
    | retain =>
      dsimp only
      split
      · rename_i above
        split
        · rename_i time has
          have up : Moves s (s.moveEngine d .clockUp (some time)) := (Move.clockUp record at_ above has).moves
          split
          · rename_i seen
            refine up.trans (on (.clock (by simp) ?_))
            simp only [State.ckokSeen, Bool.and_eq_true] at seen
            exact seen.1
          · exact up
        · exact .refl
      · split
        · rename_i below; exact (Move.drain record at_ below).moves
        · exact .refl
    | run =>
      dsimp only
      split
      · rename_i above
        split
        · rename_i has; exact on (.boostAtOnce record at_ above has)
        · rename_i has; exact (Move.boostUp record at_ above has).moves
        · exact .refl
      · split
        · rename_i below; exact on (.retain record at_ below)
        · exact .refl
    | boost =>
      dsimp only
      split
      · rename_i below
        split
        · rename_i has; exact on (.runAtOnce record at_ below has)
        · rename_i has; exact (Move.boostDown record at_ below has).moves
        · exact .refl
      · exact .refl

theorem moves_arriveWithin (n : Nat) (d : Managed) (level : Level) (s : State) :
    Moves (arrived d level s) (arriveWithin n d level s) := by
  induction n generalizing level s with
  | zero => exact moves_enterLevel d level s
  | succ n ih =>
    have at_ : ((enterLevel d level s).engine d).state = level.engineState := by
      rw [engine_enterLevel_self, engine_arrived_self]
    exact (moves_enterLevel d level s).trans (moves_beginStep ih at_)

/-- R52: what follows an arrival in its event. -/
theorem moves_arrive (d : Managed) (level : Level) (s : State) : Moves (arrived d level s) (arrive d level s) :=
  moves_arriveWithin _ d level s

theorem moves_arrive_of_reaches {d : Managed} {level : Level} {s : State} (h : Reaches s d level) :
    Moves s (arrive d level s) :=
  (moves_arrive d level s).head ⟨d, .reach h⟩

theorem moves_arrive_withdraw {d : Managed} {s : State} (at_ : (s.engine d).state = .waitBudget) :
    Moves s (arrive d .off (withdraw d s)) :=
  (moves_arrive d .off _).head ⟨d, .withdraw at_⟩

theorem moves_endSettle {d : Managed} {s : State} (at_ : (s.engine d).state.holdsWeight = true) :
    Moves s (endSettle d s) :=
  (moves_arrive d .retain _).head ⟨d, .settled at_⟩

theorem moves_seePgood {d : Managed} {s : State} (at_ : (s.engine d).state = .railUp) : Moves s (seePgood d s) := by
  unfold seePgood
  split
  · rename_i r record
    split
    · exact moves_endSettle (by rw [at_]; rfl)
    · rename_i time; exact (Move.settle record at_ time).moves
  · exact .refl

theorem moves_takeStep (d : Managed) (s : State) : Moves s (takeStep d s) := by
  have step : ∀ level : Level, (s.engine d).state = level.engineState → Moves s (beginStep (arrive d) d level s) :=
    fun level at_ => moves_beginStep (moves_arrive d) at_
  unfold takeStep
  split
  case h_1 at_ => exact step .off at_
  case h_2 at_ => exact step .retain at_
  case h_3 at_ => exact step .run at_
  case h_4 at_ => exact step .boost at_
  case h_5 at_ =>
    split
    · exact moves_arrive_of_reaches (.stopWaiting at_)
    · exact .refl
  case h_6 at_ =>
    split
    · exact moves_arrive_withdraw at_
    · exact .refl
  all_goals exact .refl

/-- R76: one grant. -/
theorem moves_grantHead {d : Managed} {rest : List Managed} {s : State} (head : s.rampQueue = d :: rest)
    (fits : s.weight d ≤ s.freeUnits) : Moves s (grantHead d rest s) := by
  have granted := (Move.grant head fits).moves
  unfold grantHead enterRailUp
  dsimp only
  split
  · exact granted.trans (moves_seePgood (by simp))
  · exact granted

theorem moves_grantChain (n : Nat) (s : State) : Moves s (grantChain n s) := by
  induction n generalizing s with
  | zero => exact .refl
  | succ n ih =>
    unfold grantChain
    split
    · rename_i d rest head
      split
      · rename_i fits
        exact ((moves_grantHead head fits).tail ⟨d, .log _⟩).trans (ih _)
      · exact .refl
    · exact .refl

end Sys2Proof.Machine
end

section
/-! What a step can do, said once: every step is a chain of single changes of the part, each with the conditions under
which the rules let it happen, and at most one reply held at a port at its end. -/

namespace Sys2Proof.Machine

/-- From s to t only what no law of the configuration, the leases, the engines or the notices reads may differ: the held
reset, the waiting reports, the ports, the tap receiver, the input levels, the pin log and the waiting commands. -/
def outside (s t : State) : Prop :=
  ∃ resetHeld reports tapAwaits ports pgood ckok lines pinLog pending, t = { s with
    resetHeld := resetHeld, reports := reports, tapAwaits := tapAwaits, ports := ports, pgood := pgood, ckok := ckok,
    lines := lines, pinLog := pinLog, pending := pending }

/-- No port's held reply or last sequence differs. -/
def keepsReplies (s t : State) : Prop :=
  ∀ p, (t.port p).held = (s.port p).held ∧ (t.port p).lastSeq = (s.port p).lastSeq

/-- R154, R179: the level that a new lease wants is within its domain's maximum level, or it is that of the template of an
enabled line. -/
def State.admits (s : State) (l : Lease) : Prop :=
  (∃ r ∈ s.record l.domain, l.wanted.num ≤ r.maxLevel.num) ∨
  ∃ k, (s.wake k).enabled = true ∧ ∃ t ∈ (s.wake k).template, l.domain = t.domain ∧ l.wanted = t.level

/-- R82: the states in which a cause of failure can be met: the rail is on, or it drains. -/
def EngineState.canFail (e : EngineState) : Bool := e.outputs.railen || e == .draining

/-- R101: the range of a window. -/
def WindowRange.inRange (r : WindowRange) : Prop := 1 ≤ r.length ∧ r.base.toNat + r.length ≤ Config.addressSpace

/-- R111: the range of a template. -/
def Template.inRange (t : Template) : Prop := t.level ≠ .off ∧ 1 ≤ t.duration ∧ t.duration ≤ 65535

/-- One change of the part. -/
inductive Change : State → State → Prop
  | outside {s t : State} (h : outside s t) (replies : keepsReplies s t) : Change s t
  /-- R173 -/
  | record {s : State} {d : Managed} {r : Option DomainRecord} (setup : s.partState = .setup)
      (sound : (s.engine d).state ≠ .fault) (inRange : ∀ x ∈ r, x.inRange d) : Change s (s.setRecord d r)
  /-- R174 -/
  | line {s : State} {k : LineId} {w : WakeLine} (setup : s.partState = .setup) (inRange : ∀ t ∈ w.template, t.inRange) :
      Change s (s.setWake k w)
  /-- R177 -/
  | enable {s : State} {k : LineId} {enabled : Bool} (valid : enabled = true → lineValid s (s.wake k) = true) :
      Change s (s.setWake k { s.wake k with enabled := enabled, link := none })
  /-- R113, R114 -/
  | baselines {s : State} {wakes : Vector WakeLine 8}
      (same : ∀ k : LineId, ∃ baseline, wakes[k] = { s.wake k with baseline := baseline }) : Change s { s with wakes := wakes }
  /-- R175, R176 -/
  | window {s : State} {w : WindowId} {range : Option WindowRange} (inRange : ∀ x ∈ range, x.inRange) :
      Change s (s.setWindow w { s.window w with range := range })
  | leases {s t : State} (h : LeasesFrom s t) : Change s t
  /-- R27, R28 -/
  | make {s : State} {i : SlotId} {l : Lease} (running : s.partState = .run) (free : s.lease i = none)
      (live : l.live = true) (sound : s.faultAtOrAbove l.domain = false) (admits : s.admits l) : Change s (placeLease i l s)
  /-- R180 -/
  | start {s : State} (setup : s.partState = .setup) (domains : ∀ d, domainPasses s d = true)
      (lines : ∀ k, linePasses s k = true) : Change s { s with partState := .run }
  /-- R181 -/
  | stop {s : State} (running : s.partState = .run) (free : ∀ i, s.lease i = none) : Change s { s with partState := .stopping }
  /-- R182 -/
  | stopped {s : State} (stopping : s.partState = .stopping) (down : s.allDown = true) : Change s { s with partState := .setup }
  | move {s t : State} {d : Managed} (h : Move d s t) : Change s t
  /-- R83 -/
  | fault {s : State} {d : Managed} {cause : FaultCause} (fails : (s.engine d).state.canFail = true) :
      Change s (faultEvent d cause s)
  /-- R51 -/
  | timers {s : State} : Change s (lowerTimers s)
  /-- R169 -/
  | reset {s : State} : Change s (resetPart s)

/-- A chain of changes. -/
abbrev Changes (s t : State) : Prop := Relation.ReflTransGen Change s t

theorem LeasesFrom.changes {s t : State} (h : LeasesFrom s t) : Changes s t := .single (.leases h)

theorem Moves.changes {s t : State} (h : Moves s t) : Changes s t := by
  induction h with
  | refl => exact .refl
  | tail _ last ih =>
    obtain ⟨d, last⟩ := last
    exact ih.tail (.move last)

/-! ### The end of an event -/

theorem changes_endStopping (s : State) : Changes s (endStopping s) := by
  unfold endStopping
  split
  · rename_i h; exact .single (.stopped h.1 h.2)
  · exact .refl

theorem changes_refreshDetectors (s : State) : Changes s (refreshDetectors s) := by
  rw [refreshDetectors_eq]
  refine .single (.baselines fun k => ?_)
  simp only [Fin.getElem_fin, Vector.getElem_ofFn]
  unfold refreshDetector
  split <;> exact ⟨_, rfl⟩

theorem changes_closeEvent (order : List Managed) (old new : State) : Changes new (closeEvent order old new) :=
  ((changes_endStopping new).trans (changes_refreshDetectors _)).tail
    (.outside ⟨_, _, _, _, _, _, _, _, _, rfl⟩ fun _ => ⟨rfl, rfl⟩)

theorem changes_takeFault {s : State} {d : Managed} (cause : FaultCause) (fails : (s.engine d).state.canFail = true) :
    Changes s (takeFault d cause s) :=
  (changes_closeEvent _ s _).head (.fault fails)

theorem changes_event {s t : State} (h : Moves s t) (order : List Managed) (old : State) :
    Changes s (closeEvent order old t) :=
  h.changes.trans (changes_closeEvent order old t)

/-! ### The lease table's events -/

theorem change_setReport (d : Managed) (r : Option Level) (s : State) : Change s (s.setReport d r) :=
  .outside ⟨_, _, _, _, _, _, _, _, _, rfl⟩ fun _ => ⟨rfl, rfl⟩

theorem changes_takeReport (d : Managed) (s : State) : Changes s (takeReport d s) := by
  unfold takeReport
  split
  · refine .head (change_setReport d none s) (LeasesFrom.changes ?_)
    exact .foldl _ (fun t i => leasesFrom_reportLease _ i t) _ _
  · exact .refl

theorem lease_of_named {s : State} {h : Handle} {l : Lease} (named : s.named h = some l) : s.lease h.slot = some l := by
  unfold State.named at named
  split at named
  · exact named
  · cases named

theorem lease_of_linked {s : State} {k : LineId} {i : SlotId} {l : Lease} (h : s.linked k = some (i, l)) :
    s.lease i = some l := by
  unfold State.linked at h
  split at h
  · split at h
    · rename_i named
      split at h
      · cases h; exact lease_of_named named
      · cases h
    · cases h
  · cases h

theorem lease_lowestFree {s : State} {i : SlotId} (h : s.lowestFree = some i) : s.lease i = none := by
  have mem : i ∈ s.freeSlots := List.mem_of_mem_head? h
  simpa [State.freeSlots] using (List.mem_filter.1 mem).2

theorem newLease_live (a : Agent) (d : Managed) (term : Term) (wanted : Level) (tag : Tag) (origin : Origin)
    (assured : Level) : (newLease a d term wanted tag origin assured).live = true := by
  unfold newLease
  split <;> rfl

theorem newLease_domain (a : Agent) (d : Managed) (term : Term) (wanted : Level) (tag : Tag) (origin : Origin)
    (assured : Level) : (newLease a d term wanted tag origin assured).domain = d := by
  unfold newLease
  split <;> rfl

theorem newLease_wanted (a : Agent) (d : Managed) (term : Term) (wanted : Level) (tag : Tag) (origin : Origin)
    (assured : Level) : (newLease a d term wanted tag origin assured).wanted = wanted := by
  unfold newLease
  split <;> rfl

/-- R27: a new lease in the lowest FREE slot. -/
theorem change_newLease {s : State} {i : SlotId} {d : Managed} {wanted : Level} (running : s.partState = .run)
    (free : s.lowestFree = some i) (sound : ¬ s.faultAtOrAbove d = true)
    (admits : ∀ l : Lease, l.domain = d → l.wanted = wanted → s.admits l) (a : Agent) (term : Term) (tag : Tag)
    (origin : Origin) (assured : Level) :
    Change s (placeLease i (newLease a d term wanted tag origin assured) s) :=
  .make running (lease_lowestFree free) (newLease_live _ _ _ _ _ _ _)
    (by rw [newLease_domain]; exact Bool.eq_false_iff.2 sound)
    (admits _ (newLease_domain _ _ _ _ _ _ _) (newLease_wanted _ _ _ _ _ _ _))

theorem leasesFrom_setLink {s : State} {k : LineId} {w : WakeLine} (h : s.wake k = w) (link : Option Handle) :
    LeasesFrom s (s.setWake k { w with link := link }) := by
  subst w
  exact leasesFrom_of_slots (leaseSide_setLink k link s) rfl rfl rfl

theorem changes_wakeCreation {k : LineId} {t : Template} {s : State} (running : s.partState = .run)
    (enabled : (s.wake k).enabled = true) (template : (s.wake k).template = some t) :
    Changes s (wakeCreation k t s).1 := by
  unfold wakeCreation
  split
  · exact .refl
  · rename_i sound
    split
    · exact .refl
    · exact .refl
    · exact .refl
    · rename_i i _ free
      have made := change_newLease running free sound
        (fun l domain wanted => .inr ⟨k, enabled, t, template, domain, wanted⟩) (s.wake k).agent (.timed t.duration) 0
        (.line k) (s.assuredOf t.domain)
      exact (leasesFrom_setLink (congrFun (wake_placeLease _ _ _) k) _).changes.head made

/-- R116 to R118: a claim of an enabled line in RUN. -/
theorem changes_wakeClaim {k : LineId} {s : State} (running : s.partState = .run) (enabled : (s.wake k).enabled = true) :
    Changes s (wakeClaim k s) := by
  refine Relation.ReflTransGen.trans ?_ (leasesFrom_post _ _ _).changes
  unfold settleClaim
  split
  · exact .refl
  · rename_i t template
    split
    · rename_i i l linked
      exact (leasesFrom_renew (lease_of_linked linked) _).changes
    · exact changes_wakeCreation running enabled template

theorem change_setBaseline (k : LineId) (baseline : Option Bool) (s : State) :
    Change s (s.setWake k { s.wake k with baseline := baseline }) := by
  refine .baselines fun j => ?_
  have := wake_setWake s j k { s.wake k with baseline := baseline }
  change ∃ b, (s.setWake k { s.wake k with baseline := baseline }).wake j = _
  rw [this]
  split
  · subst j; exact ⟨_, rfl⟩
  · exact ⟨_, rfl⟩

theorem changes_takeEdge (k : LineId) (level : Bool) (s : State) : Changes s (takeEdge k level s) := by
  unfold takeEdge
  split
  · split
    · rename_i edge
      have sampled := change_setBaseline k (some level) s
      obtain ⟨⟨running, enabled⟩, _⟩ : (s.partState = .run ∧ (s.wake k).enabled = true) ∧ _ := by
        simpa [State.detectorActive] using edge.1
      split
      · exact .head sampled (changes_wakeClaim running (by simpa using enabled))
      · exact .single sampled
    · exact .refl
  · exact .refl

end Sys2Proof.Machine
end

section
/-! Every request, every event and so every step is a chain of changes (R138 to R186). -/

namespace Sys2Proof.Machine

/-! ### What the operands of the configuration requests decode to -/

theorem decodeUpLevel_ne_off {b : Byte} {l : Level} (h : decodeUpLevel b = some l) : l ≠ .off := by
  rintro rfl
  unfold decodeUpLevel at h
  split at h <;> cases h

theorem decodeClock_inRange {maxLevel : Level} {b : Byte} {clock : Option Nat} (h : decodeClock maxLevel b = some clock) :
    (clock.isSome = true ↔ Level.retain.num < maxLevel.num) ∧ ∀ n ∈ clock, 1 ≤ n ∧ n ≤ 255 := by
  unfold decodeClock at h
  split at h
  · rename_i above
    obtain ⟨n, between, rfl⟩ := Option.map_eq_some_iff.1 h
    obtain ⟨rfl, low, high⟩ := decodeBetween_eq_some.1 between
    simp [above, low, high]
  · rename_i below
    cases h
    simp [below]

theorem decodeBoost_inRange (maxLevel : Level) (b : Byte) :
    ((decodeBoost maxLevel b).isSome = true ↔ maxLevel = .boost) ∧ ∀ n ∈ decodeBoost maxLevel b, n ≤ 255 := by
  have byte : b.toNat ≤ 255 := Nat.le_of_lt_succ b.isLt
  unfold decodeBoost
  split
  · rename_i boost; simp [boost, byte]
  · rename_i lower; simp [lower]

/-- R172: the record that a body asks for is in range. -/
theorem decodeRecord_inRange {d : Managed} {maxLevel : Level} {body : List Byte} {r : DomainRecord}
    (h : decodeRecord d maxLevel body = some r) (up : maxLevel ≠ .off) : r.inRange d := by
  unfold decodeRecord at h
  split at h
  · rename_i parent floor weight pgoodTimeout clock drain _ hfloor hweight htimeout hclock hdrain
    split at h
    · rename_i lower
      cases h
      obtain ⟨rfl, lowWeight, highWeight⟩ := decodeBetween_eq_some.1 hweight
      obtain ⟨rfl, lowTimeout, highTimeout⟩ := decodeBetween_eq_some.1 htimeout
      obtain ⟨rfl, lowDrain, highDrain⟩ := decodeBetween_eq_some.1 hdrain
      obtain ⟨clockThere, clockRange⟩ := decodeClock_inRange hclock
      obtain ⟨boostThere, boostRange⟩ := decodeBoost_inRange maxLevel (byteAt body 8)
      have byte : (byteAt body 6).toNat ≤ 255 := Nat.le_of_lt_succ (byteAt body 6).isLt
      exact ⟨lower, decodeUpLevel_ne_off hfloor, up, lowWeight, highWeight, lowTimeout, highTimeout, byte, clockThere,
        clockRange, boostThere, boostRange, lowDrain, highDrain⟩
    · cases h
  · cases h

theorem decodeDefineDomain_inRange {body : List Byte} {d : Managed} {r : Option DomainRecord}
    (h : decodeDefineDomain body = some (d, r)) : ∀ x ∈ r, x.inRange d := by
  unfold decodeDefineDomain at h
  split at h
  · cases h; simp
  · rename_i d' maxLevel _ up _ _
    obtain ⟨x, hx, same⟩ := Option.map_eq_some_iff.1 h
    cases same
    simpa using decodeRecord_inRange hx up
  · cases h

theorem decodeTemplate_inRange {body : List Byte} {template : Option Template} (h : decodeTemplate body = some template) :
    ∀ t ∈ template, t.inRange := by
  unfold decodeTemplate at h
  split at h
  · cases h; simp
  · split at h
    · rename_i hlevel htime
      cases h
      obtain ⟨rfl, low, high⟩ := decodeBetween_eq_some.1 htime
      simp only [Option.mem_some_iff, forall_eq']
      exact ⟨decodeUpLevel_ne_off hlevel, low, high⟩
    · cases h
  · cases h

theorem decodeDefineWake_inRange {body : List Byte} {k : LineId} {w : WakeLine} (h : decodeDefineWake body = some (k, w)) :
    ∀ t ∈ w.template, t.inRange := by
  unfold decodeDefineWake at h
  split at h
  · rename_i template
    cases h
    exact decodeTemplate_inRange template
  · cases h

theorem decodeSetWindow_inRange {body : List Byte} {w : WindowId} {r : WindowRange} (h : decodeSetWindow body = some (w, r)) :
    r.inRange := by
  unfold decodeSetWindow at h
  split at h
  · split at h
    · rename_i range
      cases h
      have le : (BitVec.ofNat 32 (fieldAt body 1 4)).toNat ≤ fieldAt body 1 4 := by
        rw [BitVec.toNat_ofNat]
        exact Nat.mod_le _ _
      exact ⟨range.1, (Nat.add_le_add_right le _).trans range.2⟩
    · cases h
  · cases h

/-! ### The agents' requests -/

theorem doQueryDomain_state (p : Agent) (body : List Byte) (s : State) : (doQueryDomain p body s).1 = s := by
  unfold doQueryDomain
  repeat' split
  all_goals rfl

theorem doQueryLease_state (p : Agent) (body : List Byte) (s : State) : (doQueryLease p body s).1 = s := by
  unfold doQueryLease
  repeat' split
  all_goals rfl

theorem doListLeases_state (p : Agent) (body : List Byte) (s : State) : (doListLeases p body s).1 = s := by
  unfold doListLeases
  repeat' split
  all_goals rfl

theorem doQueryWake_state (p : Agent) (body : List Byte) (s : State) : (doQueryWake p body s).1 = s := by
  unfold doQueryWake
  split <;> rfl

/-- R154: the meaning pass of ACQUIRE admits the level wanted. -/
theorem admits_of_acquireMeaning {s : State} {f : AcquireFields} {d : Managed} (h : acquireMeaning s f = .ok d)
    (l : Lease) (domain : l.domain = d) (wanted : l.wanted = f.level) : s.admits l := by
  unfold acquireMeaning at h
  split at h
  · cases h
  · split at h
    · cases h
    · rename_i r record
      split at h
      · cases h
      · rename_i level
        split at h <;> cases h
        push Not at level
        exact .inl ⟨r, by rw [domain]; exact record, by rw [wanted]; exact level.2⟩

/-- R154: the object checks of ACQUIRE. -/
theorem sound_free_of_acquireSlot {s : State} {p : Agent} {d : Managed} {i : SlotId} (h : acquireSlot s p d = .ok i) :
    ¬ s.faultAtOrAbove d = true ∧ s.lowestFree = some i := by
  unfold acquireSlot at h
  split at h
  · cases h
  · rename_i sound
    split at h <;> cases h
    exact ⟨sound, by assumption⟩

theorem changes_doAcquire (p : Agent) (body : List Byte) {s : State} (running : s.partState = .run) :
    Changes s (doAcquire p body s).1 := by
  unfold doAcquire
  split
  · exact .refl
  · split
    · exact .refl
    · rename_i meaning
      split
      · exact .refl
      · rename_i slot
        obtain ⟨sound, free⟩ := sound_free_of_acquireSlot slot
        exact .single (change_newLease running free sound (admits_of_acquireMeaning meaning) _ _ _ _ _)

theorem named_of_ownLease {s : State} {p : Agent} {h : Handle} {l : Lease} (own : ownLease s p h = .ok l) :
    s.named h = some l := by
  unfold ownLease at own
  split at own
  · cases own
  · split at own <;> cases own
    assumption

theorem lease_of_ownLease {s : State} {p : Agent} {h : Handle} {l : Lease} (own : ownLease s p h = .ok l) :
    s.lease h.slot = some l := lease_of_named (named_of_ownLease own)

theorem changes_doRenew (p : Agent) (body : List Byte) (s : State) : Changes s (doRenew p body s).1 := by
  unfold doRenew
  split
  · exact .refl
  · split
    · exact .refl
    · rename_i own
      split
      · exact .refl
      · split
        · exact .refl
        · exact (leasesFrom_renew (lease_of_ownLease own) _).changes

theorem changes_doModify (p : Agent) (body : List Byte) (s : State) : Changes s (doModify p body s).1 := by
  unfold doModify
  split
  · rename_i level _ _
    split
    · exact .refl
    · rename_i fits
      split
      · exact .refl
      · rename_i l own
        split
        · exact .refl
        · refine (leasesFrom_modifyLease (lease_of_ownLease own) fun r record => ?_).changes
          have known : ¬ (level = .off ∨ r.maxLevel.num < level.num) := by
            simpa [modifyBadLevel, named_of_ownLease own, Option.mem_def.1 record] using fits
          exact Nat.le_of_not_lt fun above => known (.inr above)
  · exact .refl

theorem changes_doRelease (p : Agent) (body : List Byte) (s : State) : Changes s (doRelease p body s).1 := by
  unfold doRelease
  split
  · exact .refl
  · split
    · exact .refl
    · exact (leasesFrom_freeSlot _ s).changes

theorem leasesFrom_setQueue (a : Agent) (q : List Notice) (s : State) : LeasesFrom s (s.setQueue a q) :=
  leasesFrom_of_slots (leaseSide_of_eq ⟨_, _, _, _, rfl⟩) rfl rfl rfl

theorem leasesFrom_takenEffect (n : Notice) (s : State) : LeasesFrom s (takenEffect n s) := by
  cases n with
  | ended h cause => exact leasesFrom_freeSlot h.slot s
  | _ => exact .refl s

theorem changes_doTakeNotice (p : Agent) (body : List Byte) (s : State) : Changes s (doTakeNotice p body s).1 := by
  unfold doTakeNotice
  split
  · exact .refl
  · exact ((leasesFrom_setQueue p _ s).trans (leasesFrom_takenEffect _ _)).changes

/-! ### The supervisor's requests -/

theorem changes_doDefineDomain (p : Agent) (body : List Byte) {s : State} (setup : s.partState = .setup) :
    Changes s (doDefineDomain p body s).1 := by
  unfold doDefineDomain
  split
  · exact .refl
  · rename_i d r decoded
    split
    · exact .refl
    · rename_i sound
      exact .single (.record setup sound (decodeDefineDomain_inRange decoded))

theorem changes_doDefineWake (p : Agent) (body : List Byte) {s : State} (setup : s.partState = .setup) :
    Changes s (doDefineWake p body s).1 := by
  unfold doDefineWake
  split
  · exact .refl
  · rename_i decoded
    exact .single (.line setup (decodeDefineWake_inRange decoded))

theorem changes_doSetWindow (p : Agent) (body : List Byte) (s : State) : Changes s (doSetWindow p body s).1 := by
  unfold doSetWindow
  split
  · exact .refl
  · rename_i decoded
    exact .single (.window (by simpa using decodeSetWindow_inRange decoded))

theorem changes_doClearWindow (p : Agent) (body : List Byte) (s : State) : Changes s (doClearWindow p body s).1 := by
  unfold doClearWindow
  split
  · exact .refl
  · split
    · exact .refl
    · exact .single (.window (by simp))

theorem changes_doSetWakeEnable (p : Agent) (body : List Byte) (s : State) : Changes s (doSetWakeEnable p body s).1 := by
  unfold doSetWakeEnable
  split
  · exact .refl
  · rename_i k enable _
    split
    · exact .refl
    · rename_i valid
      dsimp only [accept]
      split
      · exact .refl
      · rename_i differs
        refine (changes_refreshDetectors _).head (.enable fun enabled => ?_)
        subst enabled
        by_contra invalid
        exact valid ⟨rfl, by simpa using Ne.symm differs, by simpa using invalid⟩

theorem mem_allLines (k : LineId) : k ∈ allLines := by revert k; decide

theorem changes_doStart (p : Agent) (body : List Byte) {s : State} (setup : s.partState = .setup) :
    Changes s (doStart p body s).1 := by
  unfold doStart
  split
  · exact .refl
  · split
    · exact .refl
    · rename_i domains
      split
      · exact .refl
      · rename_i lines
        rw [List.find?_eq_none] at domains lines
        exact (changes_refreshDetectors _).head (.start setup (fun d => by simpa using domains d (mem_allManaged d))
          fun k => by simpa using lines k (mem_allLines k))

theorem LeasesFrom.free {s t : State} (h : LeasesFrom s t) {i : SlotId} (free : s.lease i = none) : t.lease i = none := by
  cases lease : t.lease i with
  | none => rfl
  | some l' =>
    obtain ⟨l, hl, _⟩ := h.leases i l' lease
    rw [free] at hl
    cases hl

theorem lease_freeSlot_self (i : SlotId) (s : State) : (freeSlot i s).lease i = none := by
  cases h : s.lease i with
  | none => rw [freeSlot_free h, h]
  | some l =>
    rw [freeSlot_eq_withFreed h, State.lease, slot_withFreed]
    simp [h]

theorem lease_freeSlots {is : List SlotId} {i : SlotId} (mem : i ∈ is) (s : State) : (freeSlots is s).lease i = none := by
  induction is generalizing s with
  | nil => cases mem
  | cons j is ih =>
    rcases List.mem_cons.1 mem with rfl | mem
    · exact (leasesFrom_freeSlots is (freeSlot i s)).free (lease_freeSlot_self i s)
    · exact ih mem (freeSlot j s)

theorem mem_allSlots (i : SlotId) : i ∈ allSlots := by revert i; decide

/-- R43: RESTART frees every slot. -/
theorem lease_freeSlots_usedSlots (s : State) (i : SlotId) : (freeSlots s.usedSlots s).lease i = none := by
  cases h : s.lease i with
  | none => exact (leasesFrom_freeSlots _ s).free h
  | some l => exact lease_freeSlots (List.mem_filter.2 ⟨mem_allSlots i, by simp [h]⟩) s

theorem leaseSide.partState {s t : State} (h : leaseSide s t) : t.partState = s.partState := by
  obtain ⟨⟨_, _, _, _, _, rfl⟩, _⟩ := h
  rfl

theorem changes_restartPart {s : State} (running : s.partState = .run) : Changes s (restartPart s) := by
  have freed : LeasesFrom s (emptyQueues (freeSlots s.usedSlots s)) :=
    (leasesFrom_freeSlots _ s).trans (leasesFrom_of_slots (leaseSide_of_eq ⟨_, _, _, _, rfl⟩) rfl rfl rfl)
  have stop := Change.stop (freed.side.partState.trans running) (lease_freeSlots_usedSlots s)
  exact ((freed.changes.tail stop).trans (changes_endStopping _)).trans (changes_refreshDetectors _)

theorem changes_doRevoke (p : Agent) (body : List Byte) (s : State) : Changes s (doRevoke p body s).1 := by
  unfold doRevoke
  split
  · exact .refl
  · split
    · exact .refl
    · split
      · exact .refl
      · exact (leasesFrom_endLease _ _ s).changes

theorem changes_doEvict (p : Agent) (body : List Byte) (s : State) : Changes s (doEvict p body s).1 := by
  unfold doEvict
  split
  · exact .refl
  · exact (leasesFrom_detachAgent _ s).changes

theorem changes_doClearFault (p : Agent) (body : List Byte) (s : State) : Changes s (doClearFault p body s).1 := by
  unfold doClearFault
  split
  · exact .refl
  · rename_i d _
    split
    · exact .refl
    · rename_i fault
      split
      · exact .refl
      · rename_i drains
        split
        · exact .refl
        · have clear := Move.clear (not_not.1 fault) (Bool.eq_false_iff.2 drains)
          exact changes_event ((moves_arrive d .off _).head ⟨d, clear⟩) _ _

/-! ### A request at a port -/

theorem changes_own (r : Request) (p : Agent) (body : List Byte) {s : State} (admitted : r.admission s.partState = none) :
    Changes s (r.own p body s).1 := by
  have setup : admitSetup s.partState = none → s.partState = .setup := by unfold admitSetup; split <;> simp [*]
  have running : admitRun s.partState = none → s.partState = .run := by unfold admitRun; split <;> simp [*]
  cases r with
  | status => exact .refl
  | queryDomain => exact (doQueryDomain_state p body s).symm ▸ .refl
  | queryLease => exact (doQueryLease_state p body s).symm ▸ .refl
  | listLeases => exact (doListLeases_state p body s).symm ▸ .refl
  | acquire => exact changes_doAcquire p body (running admitted)
  | renew => exact changes_doRenew p body s
  | modify => exact changes_doModify p body s
  | release => exact changes_doRelease p body s
  | takeNotice => exact changes_doTakeNotice p body s
  | detach => exact (leasesFrom_detachAgent p s).changes
  | defineDomain => exact changes_doDefineDomain p body (setup admitted)
  | defineWake => exact changes_doDefineWake p body (setup admitted)
  | setWindow => exact changes_doSetWindow p body s
  | clearWindow => exact changes_doClearWindow p body s
  | setWakeEnable => exact changes_doSetWakeEnable p body s
  | queryWake => exact (doQueryWake_state p body s).symm ▸ .refl
  | start => exact changes_doStart p body (setup admitted)
  | restart => exact changes_restartPart (running admitted)
  | revoke => exact changes_doRevoke p body s
  | evict => exact changes_doEvict p body s
  | clearFault => exact changes_doClearFault p body s

theorem admission_of_earlyRefusal {s : State} {r : Request} {p : Agent} {body : List Byte}
    (h : s.earlyRefusal r p body = none) : r.admission s.partState = none := by
  unfold State.earlyRefusal at h
  split at h
  · cases h
  · split at h
    · cases h
    · assumption

theorem changes_checked (r : Request) (p : Agent) (body : List Byte) (s : State) :
    Changes s (checked r r.own p body s).1 := by
  unfold checked
  split
  · exact .refl
  · rename_i taken
    exact changes_own r p body (admission_of_earlyRefusal taken)

end Sys2Proof.Machine
end

section
/-! The step, the lengths of the replies, and the ranges that every step keeps (R4, R101, R111, R193, R194). -/

namespace Sys2Proof.Machine

/-! ### The lengths of the replies (R200) -/

theorem length_list_le {s : State} (h : listLaw s) (d : Managed) : (s.list d).length ≤ 48 := by
  simpa using (h d).1.length_le_card

theorem length_leaseEntry (h : Handle) (l : Lease) : (leaseEntry h l).length = 4 := by simp [leaseEntry, handleBytes]

theorem length_listEntries_le (s : State) (d : Managed) : (listEntries s d).length ≤ 4 * (s.list d).length := by
  unfold listEntries
  induction s.list d with
  | nil => simp
  | cons i l ih =>
    rw [List.flatMap_cons, List.length_append, List.length_cons]
    cases lease : s.lease i with
    | none => simp only [List.length_nil]; omega
    | some l => simp only [length_leaseEntry]; omega

/-- R152: the longest reply, of 48 entries of 4 bytes. -/
theorem length_doListLeases_le {s : State} (h : listLaw s) (p : Agent) (body : List Byte) :
    (doListLeases p body s).2.body.length ≤ 250 := by
  unfold doListLeases
  split
  · simp [refuse]
  · split
    · rename_i d m _
      have entries := length_listEntries_le s m
      have list := length_list_le h m
      simp only [accept, List.length_cons]
      omega
    · simp [accept]

theorem length_doTakeNotice_le (p : Agent) (body : List Byte) (s : State) :
    (doTakeNotice p body s).2.body.length ≤ 250 := by
  unfold doTakeNotice
  split
  · simp [accept]
  · rename_i n _ _
    cases n <;> simp [accept, noticeEntry, handleBytes]

theorem length_doQueryWake_le (p : Agent) (body : List Byte) (s : State) :
    (doQueryWake p body s).2.body.length ≤ 250 := by
  unfold doQueryWake
  split
  · simp [refuse]
  · rename_i k _
    have template : (templateBytes (s.wake k).template).length = 5 := by cases (s.wake k).template <;> rfl
    have link : (linkBytes (s.wake k).link).length = 3 := by cases (s.wake k).link <;> rfl
    simp [accept, wakeReport, template, link]

/-- R200: every reply but that of LIST_LEASES has a fixed number of bytes, by the outcome of the request's checks. -/
theorem length_own_le {s : State} (h : listLaw s) (r : Request) (p : Agent) (body : List Byte) :
    (r.own p body s).2.body.length ≤ 250 := by
  cases r
  case listLeases => exact length_doListLeases_le h p body
  case takeNotice => exact length_doTakeNotice_le p body s
  case queryWake => exact length_doQueryWake_le p body s
  all_goals
    simp only [Request.own, doStatus, doQueryDomain, doQueryLease, doAcquire, doRenew, doModify, doRelease, doDetach,
      doDefineDomain, doDefineWake, doSetWindow, doClearWindow, doSetWakeEnable, doStart, doRestart, doRevoke, doEvict,
      doClearFault]
    repeat' split
  all_goals
    simp [refuse, refuseWith, accept, domainReport, rootReport, leaseBytes, handleBytes, timeBytes, twoBytes, makeLease,
      renewLease, modifyLease, detachCounts, badDomainBody, badLineBody]

theorem length_checked_le {s : State} (h : listLaw s) (r : Request) (p : Agent) (body : List Byte) :
    (checked r r.own p body s).2.body.length ≤ 250 := by
  unfold checked
  split
  · simp [refuse]
  · exact length_own_le h r p body

/-! ### The end of an exchange -/

/-- The reply that a port holds at the end of a step from s, if any, is not too long. -/
inductive Answers (s u : State) : State → Prop
  | none : Answers s u u
  | bad (p : Agent) (echo : Byte) : Answers s u (holdBadFrame p echo u)
  | reply (p : Agent) (seq : Byte) (r : Reply) (short : listLaw s → r.body.length ≤ 250) : Answers s u (holdReply p seq r u)

/-- A chain of changes, and at most one reply. -/
def StepResult (s t : State) : Prop := ∃ u, Changes s u ∧ Answers s u t

theorem Changes.outcome {s t : State} (h : Changes s t) : StepResult s t := ⟨t, h, .none⟩

theorem outcome_frameEnd {own : Agent → List Byte → State → State × Reply} {p : Agent} {body : List Byte} {s : State}
    (changes : Changes s (own p body s).1) (short : listLaw s → (own p body s).2.body.length ≤ 250) (seq : Byte) :
    StepResult s (frameEnd own p seq body s) := by
  unfold frameEnd
  split
  · exact ⟨s, .refl, .none⟩
  · split
    · exact ⟨s, .refl, .bad p seq⟩
    · split
      · exact ⟨s, .refl, .none⟩
      · exact ⟨_, changes, .reply p seq _ short⟩

theorem outcome_request (r : Request) (p : Agent) (seq : Byte) (body : List Byte) (s : State) :
    StepResult s (frameEnd (checked r r.own) p seq body s) :=
  outcome_frameEnd (changes_checked r p body s) (fun h => length_checked_le h r p body) seq

theorem outcome_byCode (code : Byte) (p : Agent) (seq : Byte) (body : List Byte) (s : State) :
    StepResult s (frameEnd (requestByCode code) p seq body s) := by
  refine outcome_frameEnd ?_ (fun h => ?_) seq
  · unfold requestByCode
    split
    · exact changes_checked _ p body s
    · exact .refl
  · unfold requestByCode
    split
    · exact length_checked_le h _ p body
    · simp [refuse]

theorem outcome_exchangeEnd (p : Agent) (bits : List Bool) (s : State) : StepResult s (exchangeEnd p bits s) := by
  unfold exchangeEnd
  split
  · exact ⟨s, .refl, .none⟩
  · split
    · exact ⟨s, .refl, .bad p _⟩
    · exact ⟨s, .refl, .none⟩
  · exact outcome_byCode _ p _ _ s

/-! ### The events -/

/-- An event that a held reset shuts out. -/
theorem outcome_unlessHeld {s t : State} (h : Changes s t) : StepResult s (if s.resetHeld = true then s else t) := by
  split
  · exact ⟨s, .refl, .none⟩
  · exact h.outcome

/-- An input takes a level, and then the event acts on it unless a reset is held. -/
theorem outcome_input {s u t : State} (input : Change s u) (h : Changes u t) :
    StepResult s (if s.resetHeld = true then u else t) := by
  split
  · exact Changes.outcome (.single input)
  · exact Changes.outcome (.head input h)

theorem change_setLine (k : LineId) (b : Bool) (s : State) : Change s (s.setLine k b) :=
  .outside ⟨_, _, _, _, _, _, _, _, _, rfl⟩ fun _ => ⟨rfl, rfl⟩

theorem change_setPgood (d : Managed) (b : Bool) (s : State) : Change s (s.setPgood d b) :=
  .outside ⟨_, _, _, _, _, _, _, _, _, rfl⟩ fun _ => ⟨rfl, rfl⟩

theorem change_setCkok (d : Managed) (b : Bool) (s : State) : Change s (s.setCkok d b) :=
  .outside ⟨_, _, _, _, _, _, _, _, _, rfl⟩ fun _ => ⟨rfl, rfl⟩

theorem changes_takePgood (d : Managed) (s : State) : Changes s (takePgood d s) := by
  unfold takePgood
  split
  · rename_i h; exact changes_event (moves_seePgood h.1) _ _
  · exact .refl

theorem canFail_of_supervisesPgood {e : EngineState} (h : e.supervisesPgood = true) : e.canFail = true := by
  revert h
  cases e <;> decide

theorem canFail_of_supervisesCkok {e : EngineState} (h : e.supervisesCkok = true) : e.canFail = true := by
  revert h
  cases e <;> decide

theorem changes_losePgood (d : Managed) (s : State) : Changes s (losePgood d s) := by
  unfold losePgood
  split
  · rename_i h; exact changes_takeFault _ (canFail_of_supervisesPgood h.1)
  · exact .refl

theorem changes_takeCkok (d : Managed) (s : State) : Changes s (takeCkok d s) := by
  unfold takeCkok
  split
  · rename_i h; exact changes_event (moves_arrive_of_reaches (.clock h.1 h.2)) _ _
  · exact .refl

theorem changes_loseCkok (d : Managed) (s : State) : Changes s (loseCkok d s) := by
  unfold loseCkok
  split
  · rename_i h; exact changes_takeFault _ (canFail_of_supervisesCkok h.1)
  · exact .refl

/-- R51: an expiry is taken in its timed state. -/
theorem outcome_onExpiry {st : EngineState} {d : Managed} {effect : State → State} {s : State}
    (h : (s.engine d).state = st → Changes s (effect s)) : StepResult s (onExpiry st d effect s) := by
  unfold onExpiry
  split
  · rename_i due
    refine Changes.outcome (h ?_)
    have expiry := due.2
    simp only [State.expiryDue, Bool.and_eq_true, beq_iff_eq] at expiry
    exact expiry.1
  · exact ⟨s, .refl, .none⟩

theorem changes_endDrain {d : Managed} {s : State} (at_ : (s.engine d).state = .draining) : Changes s (endDrain d s) := by
  unfold endDrain
  split
  · exact changes_takeFault _ (by rw [at_]; rfl)
  · exact changes_event (moves_arrive_of_reaches (.drained at_)) _ _

theorem changes_takeTapWord (bits : List Bool) (s : State) : Changes s (takeTapWord bits s) := by
  unfold takeTapWord
  split
  · exact .refl
  · split
    · exact (leasesFrom_matchAddress _ s).changes
    · exact .refl

theorem change_releaseReset (chipSelects : Vector Bool 4) (tfrm : Bool) (s : State) :
    Change s (releaseReset chipSelects tfrm s) :=
  .outside ⟨_, _, _, _, _, _, _, _, _, rfl⟩ fun p => by simp [releaseReset, State.port]

theorem change_selected (p : Agent) (s : State) : Change s (s.setPort p { s.port p with awaitsDeselect := false }) :=
  .outside ⟨_, _, _, _, _, _, _, _, _, rfl⟩ fun q => by
    rw [port_setPort]
    split
    · subst q; exact ⟨rfl, rfl⟩
    · exact ⟨rfl, rfl⟩

/-! ### The step -/

theorem next_injective {s t : State} (h : Host.Outcome.next (φ := Fault) (ρ := Refusal) s = .next t) : s = t := by
  cases h; rfl

/-- Every command is a chain of changes with at most one reply. -/
theorem outcome_exec {c : Instr} {s t : State} (h : exec c s = .next t) : StepResult s t := by
  cases c
  all_goals rw [← next_injective h]
  case status p seq body => exact outcome_request .status p seq body s
  case queryDomain p seq body => exact outcome_request .queryDomain p seq body s
  case queryLease p seq body => exact outcome_request .queryLease p seq body s
  case listLeases p seq body => exact outcome_request .listLeases p seq body s
  case acquire p seq body => exact outcome_request .acquire p seq body s
  case renew p seq body => exact outcome_request .renew p seq body s
  case modify p seq body => exact outcome_request .modify p seq body s
  case release p seq body => exact outcome_request .release p seq body s
  case takeNotice p seq body => exact outcome_request .takeNotice p seq body s
  case detach p seq body => exact outcome_request .detach p seq body s
  case defineDomain p seq body => exact outcome_request .defineDomain p seq body s
  case defineWake p seq body => exact outcome_request .defineWake p seq body s
  case setWindow p seq body => exact outcome_request .setWindow p seq body s
  case clearWindow p seq body => exact outcome_request .clearWindow p seq body s
  case setWakeEnable p seq body => exact outcome_request .setWakeEnable p seq body s
  case queryWake p seq body => exact outcome_request .queryWake p seq body s
  case start p seq body => exact outcome_request .start p seq body s
  case restart p seq body => exact outcome_request .restart p seq body s
  case revoke p seq body => exact outcome_request .revoke p seq body s
  case evict p seq body => exact outcome_request .evict p seq body s
  case clearFault p seq body => exact outcome_request .clearFault p seq body s
  case unknownRequest p seq code body => exact outcome_byCode code p seq body s
  case retransmission p seq code body => exact outcome_byCode code p seq body s
  case badFrame p bits => exact outcome_exchangeEnd p bits s
  case idleExchange p bits => exact outcome_exchangeEnd p bits s
  case tapWord bits => exact (changes_takeTapWord bits s).outcome
  case lineEvent k b => exact outcome_input (change_setLine k b s) (changes_takeEdge k b _)
  case pgoodAsserted d => exact outcome_input (change_setPgood d _ s) (changes_takePgood d _)
  case pgoodDeasserted d => exact outcome_input (change_setPgood d _ s) (changes_losePgood d _)
  case ckokAsserted d => exact outcome_input (change_setCkok d _ s) (changes_takeCkok d _)
  case ckokDeasserted d => exact outcome_input (change_setCkok d _ s) (changes_loseCkok d _)
  case tick => exact outcome_unlessHeld ((leasesFrom_tickLeases s).changes.tail .timers)
  case leaseExpiry i =>
    exact outcome_unlessHeld ((leasesFrom_settleMarks s).trans (leasesFrom_takeExpiry i _)).changes
  case railUpExpiry d =>
    exact outcome_onExpiry fun at_ => changes_takeFault _ (by rw [at_]; rfl)
  case settleExpiry d =>
    exact outcome_onExpiry fun at_ => changes_event (moves_endSettle (by rw [at_]; rfl)) _ _
  case clockUpExpiry d =>
    exact outcome_onExpiry fun at_ => changes_takeFault _ (by rw [at_]; rfl)
  case boostUpExpiry d =>
    exact outcome_onExpiry fun at_ => changes_event (moves_arrive_of_reaches (.boost at_)) _ _
  case boostDownExpiry d =>
    exact outcome_onExpiry fun at_ => changes_event (moves_arrive_of_reaches (.run at_)) _ _
  case drainEnd d => exact outcome_onExpiry changes_endDrain
  case faultDrainExpiry d =>
    exact outcome_onExpiry fun at_ => changes_event (Move.complete at_).moves _ _
  case stepBegin d => exact outcome_unlessHeld (changes_event (moves_takeStep d s) _ _)
  case rampGrant => exact outcome_unlessHeld (changes_event (moves_grantChain _ s) _ _)
  case levelReachedReport d => exact outcome_unlessHeld (changes_takeReport d s)
  case partReset => exact Changes.outcome (.single .reset)
  case partResetRelease cs tfrm =>
    split
    · exact Changes.outcome (.single (change_releaseReset cs tfrm s))
    · exact ⟨s, .refl, .none⟩
  case chipSelectDeasserted p => exact outcome_unlessHeld (.single (change_selected p s))
  case tfrmDeasserted =>
    exact outcome_unlessHeld (.single (.outside ⟨_, _, _, _, _, _, _, _, _, rfl⟩ fun _ => ⟨rfl, rfl⟩))

theorem outcome_step {s t : State} (h : step s = .next t) : StepResult s t := by
  unfold step at h
  split at h
  · cases h; exact ⟨s, .refl, .none⟩
  · rename_i c rest _
    obtain ⟨u, changes, answer⟩ := outcome_exec h
    have taken : Change s { s with pending := rest } :=
      .outside ⟨_, _, _, _, _, _, _, _, _, rfl⟩ fun _ => ⟨rfl, rfl⟩
    refine ⟨u, .head taken changes, ?_⟩
    cases answer with
    | none => exact .none
    | bad p echo => exact .bad p echo
    | reply p seq r short => exact .reply p seq r short

/-- What every change keeps, every chain of changes keeps. -/
theorem Changes.keeps {P : State → Prop} (each : ∀ {s t}, Change s t → P s → P t) {s t : State} (h : Changes s t) :
    P s → P t := by
  induction h with
  | refl => exact id
  | tail _ last ih => exact fun hs => each last (ih hs)

theorem Answers.outside {s u t : State} (h : Answers s u t) : outside u t := by
  cases h <;> exact ⟨_, _, _, _, _, _, _, _, _, rfl⟩

/-- The induction over a step, for a law that the ports do not bear on: every change keeps it, and so does the step. -/
theorem step_keeps {P : State → Prop} (blind : ∀ {s t}, outside s t → P s → P t) (each : ∀ {s t}, Change s t → P s → P t)
    {s t : State} (h : step s = .next t) (hs : P s) : P t := by
  obtain ⟨u, changes, answer⟩ := outcome_step h
  exact blind answer.outside (changes.keeps each hs)

end Sys2Proof.Machine
end

section
/-! The ranges that every step keeps: records, templates, windows, held replies and last sequences
(R4, R101, R111, R193, R194). -/

namespace Sys2Proof.Machine

/-! ### The configuration -/

/-- R83: after the cuts a fault event ends leases and posts a notice. -/
theorem leases_after_cut (d : Managed) (cause : FaultCause) (s : State) :
    LeasesFrom ((s.descendants d).foldl cutEngine (failEngine d cause s)) (faultEvent d cause s) := by
  refine LeasesFrom.trans ?_ (leasesFrom_post _ _ _)
  exact (leasesFrom_endAll _ _ _).trans (.foldl _ (fun t e => leasesFrom_endAll _ _ t) _ _)

/-- R83: a fault event touches the engines' side and then ends leases. -/
theorem faultEvent_sides (d : Managed) (cause : FaultCause) (s : State) :
    ∃ u, engineSide s u ∧ LeasesFrom u (faultEvent d cause s) :=
  ⟨_, engineSide_cutAll d cause s, leases_after_cut d cause s⟩

theorem leaseSide.template {s t : State} (h : leaseSide s t) (k : LineId) : (t.wake k).template = (s.wake k).template := by
  rw [h.2 k]

theorem resetPart_record (s : State) (d : Managed) : (resetPart s).record d = none := by
  simp [resetPart, logPins, State.record, State.reset]

theorem recordLaw_change {s t : State} (h : Change s t) (hs : recordLaw s) : recordLaw t := by
  have same : t.record = s.record → recordLaw t := fun records => by unfold recordLaw; rw [records]; exact hs
  cases h with
  | outside h _ => obtain ⟨_, _, _, _, _, _, _, _, _, rfl⟩ := h; exact hs
  | @record d r _ _ inRange =>
    intro e x hx
    rw [record_setRecord] at hx
    split at hx
    · subst e; exact inRange x hx
    · exact hs e x hx
  | leases h => exact same h.side.record
  | make => exact same (leaseSide_placeLease _ _ s).record
  | move h => obtain ⟨_, _, _, _, _, rfl⟩ := h.side; exact hs
  | @fault d cause _ =>
    obtain ⟨_, ⟨_, _, _, _, rfl⟩, leases⟩ := faultEvent_sides d cause s
    exact same leases.side.record
  | reset =>
    intro d r hr
    rw [resetPart_record] at hr
    cases hr
  | _ => exact hs

theorem templateLaw_of_same {s t : State} (templates : ∀ k, (t.wake k).template = (s.wake k).template)
    (h : templateLaw s) : templateLaw t := by
  unfold templateLaw
  simp only [templates]
  exact h

theorem resetPart_wake (s : State) (k : LineId) : (resetPart s).wake k = WakeLine.reset := by
  simp [resetPart, logPins, State.wake, State.reset]

theorem templateLaw_change {s t : State} (h : Change s t) (hs : templateLaw s) : templateLaw t := by
  cases h with
  | outside h _ => obtain ⟨_, _, _, _, _, _, _, _, _, rfl⟩ := h; exact hs
  | @line k w _ inRange =>
    intro j x hx
    rw [wake_setWake] at hx
    split at hx
    · exact inRange x hx
    · exact hs j x hx
  | @enable k enabled _ =>
    refine templateLaw_of_same (s := s) (fun j => ?_) hs
    rw [wake_setWake]
    split
    · subst j; rfl
    · rfl
  | @baselines wakes same =>
    refine templateLaw_of_same (s := s) (fun k => ?_) hs
    obtain ⟨_, eq⟩ := same k
    exact (congrArg WakeLine.template eq :)
  | leases h => exact templateLaw_of_same h.side.template hs
  | make => exact templateLaw_of_same (leaseSide_placeLease _ _ s).template hs
  | move h => obtain ⟨_, _, _, _, _, rfl⟩ := h.side; exact hs
  | @fault d cause _ =>
    obtain ⟨_, ⟨_, _, _, _, rfl⟩, leases⟩ := faultEvent_sides d cause s
    exact templateLaw_of_same leases.side.template hs
  | reset =>
    intro k x hx
    rw [resetPart_wake] at hx
    cases hx
  | _ => exact hs

theorem windowLaw_of_same {s t : State} (ranges : ∀ w, (t.window w).range = (s.window w).range) (h : windowLaw s) :
    windowLaw t := by
  unfold windowLaw
  simp only [ranges]
  exact h

theorem placeLease_ranges (i : SlotId) (l : Lease) (s : State) (w : WindowId) :
    ((placeLease i l s).window w).range = (s.window w).range := by
  unfold placeLease
  rw [window_countIn]
  split <;> rfl

theorem windowLaw_change {s t : State} (h : Change s t) (hs : windowLaw s) : windowLaw t := by
  cases h with
  | outside h _ => obtain ⟨_, _, _, _, _, _, _, _, _, rfl⟩ := h; exact hs
  | @window w range inRange =>
    intro v x hx
    rw [window_setWindow] at hx
    split at hx
    · exact inRange x hx
    · exact hs v x hx
  | leases h => exact windowLaw_of_same h.ranges hs
  | make => exact windowLaw_of_same (placeLease_ranges _ _ s) hs
  | move h => obtain ⟨_, _, _, _, _, rfl⟩ := h.side; exact hs
  | @fault d cause _ =>
    obtain ⟨_, ⟨_, _, _, _, rfl⟩, leases⟩ := faultEvent_sides d cause s
    exact windowLaw_of_same leases.ranges hs
  | reset =>
    intro w x hx
    simp [resetPart, logPins, State.window, State.reset] at hx
  | _ => exact hs

theorem configurationLaw_change {s t : State} (h : Change s t) (hs : configurationLaw s) : configurationLaw t := by
  obtain ⟨records, templates, windows⟩ := hs
  exact ⟨recordLaw_change h records, templateLaw_change h templates, windowLaw_change h windows⟩

theorem configurationLaw_outside {s t : State} (h : outside s t) (hs : configurationLaw s) : configurationLaw t := by
  obtain ⟨_, _, _, _, _, _, _, _, _, rfl⟩ := h
  exact hs

/-! ### The ports -/

theorem keepsReplies_of_ports {s t : State} (h : t.ports = s.ports) : keepsReplies s t := by
  intro p
  simp [State.port, h]

theorem leaseSide.ports {s t : State} (h : leaseSide s t) : t.ports = s.ports := by
  obtain ⟨⟨_, _, _, _, _, rfl⟩, _⟩ := h
  rfl

/-- No change writes a reply but the part reset. -/
theorem keepsReplies_or_reset {s t : State} (h : Change s t) : keepsReplies s t ∨ t = resetPart s := by
  cases h with
  | outside _ replies => exact .inl replies
  | leases h => exact .inl (keepsReplies_of_ports h.side.ports)
  | make => exact .inl (keepsReplies_of_ports (leaseSide_placeLease _ _ s).ports)
  | move h => obtain ⟨_, _, _, _, _, rfl⟩ := h.side; exact .inl (keepsReplies_of_ports rfl)
  | @fault d cause _ =>
    obtain ⟨_, ⟨_, _, _, _, rfl⟩, leases⟩ := faultEvent_sides d cause s
    exact .inl (keepsReplies_of_ports leases.side.ports)
  | reset => exact .inr rfl
  | _ => exact .inl (keepsReplies_of_ports rfl)

theorem portLaws_change {s t : State} (h : Change s t) (hs : replyLaw s ∧ sequenceLaw s) : replyLaw t ∧ sequenceLaw t := by
  rcases keepsReplies_or_reset h with keeps | rfl
  · refine ⟨fun p => ?_, fun p => ?_⟩
    · rw [(keeps p).1]; exact hs.1 p
    · rw [(keeps p).2]; exact hs.2 p
  · have ports : ∀ p, (resetPart s).port p = Port.reset := fun p => by simp [resetPart, logPins, State.port, State.reset]
    exact ⟨fun p => by rw [ports]; decide, fun p => by rw [ports]; decide⟩

theorem portLaws_setPort {s : State} (hs : replyLaw s ∧ sequenceLaw s) {p : Agent} {x : Port}
    (short : x.held.body.length ≤ 250) (sequence : x.lastSeq ≠ some 0) :
    replyLaw (s.setPort p x) ∧ sequenceLaw (s.setPort p x) := by
  refine ⟨fun q => ?_, fun q => ?_⟩
  · rw [port_setPort]
    split
    · exact short
    · exact hs.1 q
  · rw [port_setPort]
    split
    · exact sequence
    · exact hs.2 q

/-- R193, R194: a reply within its length is held, under a sequence that is not 0 or with the last one kept. -/
theorem portLaws_answers {s u t : State} (h : Answers s u t) (lists : listLaw s) (hu : replyLaw u ∧ sequenceLaw u) :
    replyLaw t ∧ sequenceLaw t := by
  cases h with
  | none => exact hu
  | bad p echo => exact portLaws_setPort hu (Nat.zero_le _) (hu.2 p)
  | reply p seq r short =>
    refine portLaws_setPort hu (short lists) ?_
    dsimp only
    split
    · exact hu.2 p
    · rename_i ne
      exact fun h => ne (Option.some.inj h)

/-- Settles O52: each change of a step keeps the configuration in range, and the reply that ends the step is in range. -/
theorem configurationAndPortsStayInRange : Obligations.ConfigurationAndPortsStayInRange := by
  refine ⟨fun s t hs h => step_keeps configurationLaw_outside configurationLaw_change h hs, fun s t lists hs h => ?_⟩
  obtain ⟨u, changes, answer⟩ := outcome_step h
  exact portLaws_answers answer lists (changes.keeps portLaws_change hs)

end Sys2Proof.Machine
end

section
/-! START's checks go on standing outside SETUP, and no live lease and no target is above its domain's maximum level
(R15, R122, R158, R179). -/

namespace Sys2Proof.Machine

/-! ### The checks -/

theorem defined_congr {s t : State} (h : t.record = s.record) : t.defined = s.defined := by
  funext d
  unfold State.defined
  rw [h]

theorem domainPasses_congr {s t : State} (h : t.record = s.record) (d : Managed) : domainPasses t d = domainPasses s d := by
  have maxLevel : t.maxLevel = s.maxLevel := by funext p; unfold State.maxLevel; rw [h]
  unfold domainPasses
  rw [h, maxLevel, defined_congr h]

theorem lineValid_congr {s t : State} (h : t.record = s.record) {v w : WakeLine} (home : w.home = v.home)
    (template : w.template = v.template) : lineValid t w = lineValid s v := by
  unfold lineValid
  rw [h, defined_congr h, home, template]

/-- A record's fields that START checks (R179). -/
def sameChecked (v w : WakeLine) : Prop := w.enabled = v.enabled ∧ w.home = v.home ∧ w.template = v.template

theorem linePasses_congr {s t : State} (h : t.record = s.record) {k : LineId} (same : sameChecked (s.wake k) (t.wake k)) :
    linePasses t k = linePasses s k := by
  obtain ⟨enabled, home, template⟩ := same
  unfold linePasses
  rw [enabled, lineValid_congr h home template]

theorem startLaw_of_same {s t : State} (partState : t.partState ≠ .setup → s.partState ≠ .setup)
    (records : t.record = s.record) (lines : ∀ k, sameChecked (s.wake k) (t.wake k)) (h : startLaw s) : startLaw t := by
  intro outside
  obtain ⟨domains, wakes⟩ := h (partState outside)
  exact ⟨fun d => by rw [domainPasses_congr records]; exact domains d,
    fun k => by rw [linePasses_congr records (lines k)]; exact wakes k⟩

theorem leaseSide.sameChecked {s t : State} (h : leaseSide s t) (k : LineId) : sameChecked (s.wake k) (t.wake k) := by
  rw [h.2 k]
  exact ⟨rfl, rfl, rfl⟩

theorem startLaw_leaseSide {s t : State} (h : leaseSide s t) : startLaw s → startLaw t :=
  startLaw_of_same (fun outside => h.partState ▸ outside) h.record h.sameChecked

/-- R122, R177: a line that is enabled has been checked. -/
theorem linePasses_enable {s : State} {k j : LineId} {enabled : Bool}
    (valid : enabled = true → lineValid s (s.wake k) = true) (passes : linePasses s j = true) :
    linePasses (s.setWake k { s.wake k with enabled := enabled, link := none }) j = true := by
  unfold linePasses
  rw [wake_setWake]
  split
  · cases enabled with
    | false => rfl
    | true => exact valid rfl
  · exact passes

theorem startLaw_change {s t : State} (h : Change s t) (hs : startLaw s) : startLaw t := by
  cases h with
  | outside h _ => obtain ⟨_, _, _, _, _, _, _, _, _, rfl⟩ := h; exact hs
  | record setup => exact fun outside => absurd setup outside
  | line setup _ => exact fun outside => absurd setup outside
  | @enable k enabled valid =>
    intro outside
    obtain ⟨domains, lines⟩ := hs outside
    exact ⟨domains, fun j => linePasses_enable valid (lines j)⟩
  | @baselines wakes same =>
    refine startLaw_of_same (s := s) id rfl (fun k => ?_) hs
    obtain ⟨_, eq⟩ := same k
    change sameChecked (s.wake k) wakes[k]
    rw [eq]
    exact ⟨rfl, rfl, rfl⟩
  | window _ => exact hs
  | leases h => exact startLaw_leaseSide h.side hs
  | make => exact startLaw_leaseSide (leaseSide_placeLease _ _ s) hs
  | start setup domains lines => exact fun _ => ⟨domains, lines⟩
  | stop running _ => exact fun _ => hs (by rw [running]; decide)
  | stopped => exact fun outside => absurd rfl outside
  | move h => obtain ⟨_, _, _, _, _, rfl⟩ := h.side; exact hs
  | @fault d cause _ =>
    obtain ⟨_, ⟨_, _, _, _, rfl⟩, leases⟩ := faultEvent_sides d cause s
    exact startLaw_leaseSide leases.side hs
  | timers => exact hs
  | reset => exact fun outside => absurd rfl outside

/-! ### The slots outside RUN -/

theorem emptyLaw_leasesFrom {s t : State} (h : LeasesFrom s t) (hs : emptyLaw s) : emptyLaw t :=
  fun notRunning i => h.free (hs (h.side.partState ▸ notRunning) i)

theorem partState_placeLease (i : SlotId) (l : Lease) (s : State) : (placeLease i l s).partState = s.partState :=
  (leaseSide_placeLease i l s).partState

theorem lease_placeLease (i j : SlotId) (l : Lease) (s : State) :
    (placeLease i l s).lease j = if j = i then some l else s.lease j := by
  rw [placeLease_eq_withNewLease]
  have slot : (withNewLease i l s).slot j = ((s.setLease i l).slot j) := rfl
  rw [State.lease, slot]
  exact lease_setLease s i j l

theorem lease_resetPart (i : SlotId) (s : State) : (resetPart s).lease i = none := by
  simp [resetPart, logPins, State.lease, State.slot, State.reset]

theorem emptyLaw_change {s t : State} (h : Change s t) (hs : emptyLaw s) : emptyLaw t := by
  cases h with
  | outside h _ => obtain ⟨_, _, _, _, _, _, _, _, _, rfl⟩ := h; exact hs
  | leases h => exact emptyLaw_leasesFrom h hs
  | make running => exact fun notRunning => absurd ((partState_placeLease _ _ s).trans running) notRunning
  | start => exact fun notRunning => absurd rfl notRunning
  | stop _ free => exact fun _ => free
  | stopped stopping _ => exact fun _ => hs (by rw [stopping]; decide)
  | move h => obtain ⟨_, _, _, _, _, rfl⟩ := h.side; exact hs
  | @fault d cause _ =>
    obtain ⟨_, ⟨_, _, _, _, rfl⟩, leases⟩ := faultEvent_sides d cause s
    exact emptyLaw_leasesFrom leases hs
  | reset => exact fun _ i => lease_resetPart i s
  | _ => exact hs

/-! ### The wanted levels -/

theorem wantedLaw_leasesFrom {s t : State} (h : LeasesFrom s t) (hs : wantedLaw s) : wantedLaw t := by
  intro i l' h' live
  obtain ⟨l, hl, domain, lived, wanted⟩ := h.leases i l' h'
  obtain ⟨r, record, within⟩ := (Option.any_eq_true _ _).1 (hs i l hl (lived live))
  rw [h.side.record, domain, record]
  rcases wanted with eq | fits
  · rw [eq]; exact within
  · simpa using fits r record

/-- Outside SETUP an enabled line's template wants no more than its domain's maximum level. -/
theorem within_of_admits {s : State} {l : Lease} (checks : startLaw s) (running : s.partState = .run) (admits : s.admits l) :
    (s.record l.domain).any (fun r => l.wanted.num ≤ r.maxLevel.num) = true := by
  rcases admits with ⟨r, record, within⟩ | ⟨k, enabled, t, template, domain, wanted⟩
  · rw [Option.mem_def.1 record]; simpa using within
  · obtain ⟨_, lines⟩ := checks (by rw [running]; decide)
    have valid : lineValid s (s.wake k) = true := by simpa [linePasses, enabled] using lines k
    obtain ⟨_, fits⟩ := (lineChecked_iff s k).2 valid
    obtain ⟨r, record, within⟩ := fits t template
    rw [domain, wanted, Option.mem_def.1 record]
    simpa using within

theorem wantedLaw_change {s t : State} (h : Change s t) (checks : startLaw s) (empty : emptyLaw s) (hs : wantedLaw s) :
    wantedLaw t := by
  cases h with
  | outside h _ => obtain ⟨_, _, _, _, _, _, _, _, _, rfl⟩ := h; exact hs
  | record setup =>
    intro i l h
    have free : s.lease i = none := empty (by rw [setup]; decide) i
    rw [lease_setRecord, free] at h
    cases h
  | leases h => exact wantedLaw_leasesFrom h hs
  | @make i l running _ _ _ admits =>
    intro j l' h live
    rw [lease_placeLease] at h
    rw [(leaseSide_placeLease _ _ s).record]
    split at h
    · cases h; exact within_of_admits checks running admits
    · exact hs j l' h live
  | move h => obtain ⟨_, _, _, _, _, rfl⟩ := h.side; exact hs
  | @fault d cause _ =>
    obtain ⟨_, ⟨_, _, _, _, rfl⟩, leases⟩ := faultEvent_sides d cause s
    exact wantedLaw_leasesFrom leases hs
  | reset =>
    intro i l h
    rw [lease_resetPart] at h
    cases h
  | _ => exact hs

/-! ### The targets -/

theorem list_eq_nil_of_free {s : State} (lists : listLaw s) (free : ∀ i, s.lease i = none) (d : Managed) : s.list d = [] := by
  refine List.eq_nil_iff_forall_not_mem.2 fun i mem => ?_
  have live := ((lists d).2 i).1 mem
  simp [State.liveOn, free] at live

/-- R13, R14: without leases and with every domain down nothing is wanted. -/
theorem target_eq_off_of_down {s : State} (lists : ∀ d, s.list d = []) (down : s.allDown = true) (d : Managed) :
    s.target d = .off := by
  have engines : ∀ e, (s.engine e).down = true := fun e => List.all_eq_true.1 down e (mem_allManaged e)
  induction d using leavesUp with
  | each d ih =>
    have none : ((s.children (managedDomain d)).filter fun c => s.target c.1 != .off || !(s.engine c.1).down) = [] := by
      refine List.filter_eq_nil_iff.2 fun c mem => ?_
      simp [ih c.1 (lt_of_mem_children mem), engines]
    rw [target_eq, lists, none]
    simp [Level.greatest]

theorem target_eq_off_of_setup {s : State} (empty : emptyLaw s) (lists : listLaw s) (quiet : setupLaw s)
    (setup : s.partState = .setup) (d : Managed) : s.target d = .off :=
  target_eq_off_of_down (list_eq_nil_of_free lists (empty (by rw [setup]; decide))) (quiet setup) d

theorem wanted_le_of_mem_list {s : State} (lists : listLaw s) (wanted : wantedLaw s) {d : Managed} {r : DomainRecord}
    (record : s.record d = some r) {a : Level}
    (mem : a ∈ (s.list d).filterMap fun i => (s.lease i).map Lease.wanted) : a.num ≤ r.maxLevel.num := by
  obtain ⟨i, listed, hi⟩ := List.mem_filterMap.1 mem
  obtain ⟨l, lease, rfl⟩ := Option.map_eq_some_iff.1 hi
  obtain ⟨live, domain⟩ : l.live = true ∧ l.domain = d := by
    simpa [State.liveOn, lease] using ((lists d).2 i).1 listed
  have within := wanted i l lease live
  rw [domain, record] at within
  simpa using within

theorem floor_le_of_mem_children {s : State} (passes : ∀ d, domainPasses s d = true) {d c : Managed} {floor : Level}
    {r : DomainRecord} (record : s.record d = some r) (mem : (c, floor) ∈ s.children (managedDomain d)) :
    floor.num ≤ r.maxLevel.num := by
  obtain ⟨rc, child, parent, rfl, _⟩ := (place_eq_some_iff s c _ _).1 ((mem_children_iff_place s _ c floor).1 mem)
  have checked := passes c
  simp only [domainPasses, child, parent, State.maxLevel, asManaged_managedDomain, record, Bool.and_eq_true,
    decide_eq_true_eq] at checked
  exact checked.2

/-- R15: what claims a domain is within its maximum level, and so is its target. -/
theorem targetBound_of_laws {s : State} (checks : startLaw s) (empty : emptyLaw s) (lists : listLaw s) (quiet : setupLaw s)
    (wanted : wantedLaw s) : targetBound s := by
  intro d r record
  by_cases setup : s.partState = .setup
  · rw [target_eq_off_of_setup empty lists quiet setup]; exact Nat.zero_le _
  · rw [target_eq]
    split
    · exact Nat.zero_le _
    · rw [greatest_le_iff]
      intro a mem
      rcases List.mem_append.1 mem with leased | held
      · exact wanted_le_of_mem_list lists wanted record leased
      · obtain ⟨⟨c, floor⟩, holds, rfl⟩ := List.mem_map.1 held
        exact floor_le_of_mem_children (checks setup).1 record (List.mem_filter.1 holds).1

theorem startLaw_outside {s t : State} (h : outside s t) (hs : startLaw s) : startLaw t := by
  obtain ⟨_, _, _, _, _, _, _, _, _, rfl⟩ := h
  exact hs

/-- The laws of START's checks and of the wanted levels, which a change keeps together. -/
def demandLaw (s : State) : Prop := startLaw s ∧ emptyLaw s ∧ wantedLaw s

theorem demandLaw_outside {s t : State} (h : outside s t) (hs : demandLaw s) : demandLaw t := by
  obtain ⟨_, _, _, _, _, _, _, _, _, rfl⟩ := h
  exact hs

theorem demandLaw_change {s t : State} (h : Change s t) (hs : demandLaw s) : demandLaw t := by
  obtain ⟨checks, empty, wanted⟩ := hs
  exact ⟨startLaw_change h checks, emptyLaw_change h empty, wantedLaw_change h checks empty wanted⟩

/-- Settles O58: every change of a step keeps the checks and the wanted levels, and these bound the targets. -/
theorem wantedLevelsStayWithinTheMaximum : Obligations.WantedLevelsStayWithinTheMaximum := by
  refine ⟨fun s t checks h => ⟨step_keeps startLaw_outside startLaw_change h checks, fun empty wanted => ?_⟩,
    fun s => targetBound_of_laws⟩
  obtain ⟨_, _, wanted⟩ := step_keeps demandLaw_outside demandLaw_change h ⟨checks, empty, wanted⟩
  exact wanted

end Sys2Proof.Machine
end

section
/-! The ramp arbiter's laws are kept by every change: held weights and free units sum to the budget, and the ramp queue is
the domains in WAIT_BUDGET (R73, R74, R167). -/

namespace Sys2Proof.Machine

/-! ### When the laws read the same -/

theorem leaseSide.engine {s t : State} (h : leaseSide s t) : t.engine = s.engine := by
  obtain ⟨⟨_, _, _, _, _, rfl⟩, _⟩ := h
  rfl

theorem leaseSide.rampQueue {s t : State} (h : leaseSide s t) : t.rampQueue = s.rampQueue := by
  obtain ⟨⟨_, _, _, _, _, rfl⟩, _⟩ := h
  rfl

theorem leaseSide.freeUnits {s t : State} (h : leaseSide s t) : t.freeUnits = s.freeUnits := by
  obtain ⟨⟨_, _, _, _, _, rfl⟩, _⟩ := h
  rfl

theorem engine_lowerTimers (s : State) (d : Managed) :
    (lowerTimers s).engine d = { s.engine d with timer := (s.engine d).timer.map fun n => n - 1 } := by
  simp [lowerTimers, State.engine]

theorem record_lowerTimers (s : State) : (lowerTimers s).record = s.record := by
  funext d
  simp only [lowerTimers, State.record]

theorem weight_congr {s t : State} (records : t.record = s.record) : t.weight = s.weight := by
  funext d
  unfold State.weight
  rw [records]

/-- From s to t no engine but d's differs, and no record. -/
structure Turns (d : Managed) (s t : State) : Prop where
  records : t.record = s.record
  others : ∀ e, e ≠ d → t.engine e = s.engine e

theorem Turns.heldWeight {d : Managed} {s t : State} (h : Turns d s t) {e : Managed} (other : e ≠ d) :
    t.heldWeight e = s.heldWeight e := by
  unfold State.heldWeight
  rw [h.others e other, weight_congr h.records]

/-! ### The budget -/

/-- Two sums over a list that differ at one place differ by what they differ there. -/
theorem sum_map_turn {l : List Managed} (nodup : l.Nodup) {d : Managed} (mem : d ∈ l) {f g : Managed → Nat}
    (same : ∀ e, e ≠ d → f e = g e) : (l.map f).sum + g d = (l.map g).sum + f d := by
  induction l with
  | nil => cases mem
  | cons e l ih =>
    obtain ⟨absent, nodup⟩ := List.nodup_cons.1 nodup
    rcases List.mem_cons.1 mem with rfl | mem
    · have rest : l.map f = l.map g := List.map_congr_left fun e he => same e fun eq => absent (eq ▸ he)
      simp only [List.map_cons, List.sum_cons, rest]
      omega
    · have here := same e fun eq => absent (eq ▸ mem)
      have later := ih nodup mem
      simp only [List.map_cons, List.sum_cons, here]
      omega

/-- R73: what the turning domain takes or returns leaves or joins the free units. -/
theorem budgetLaw_of_turn {d : Managed} {s t : State} (h : Turns d s t)
    (units : t.freeUnits + t.heldWeight d = s.freeUnits + s.heldWeight d) (hs : budgetLaw s) : budgetLaw t := by
  have sums := sum_map_turn (l := allManaged) (by decide) (mem_allManaged d) (f := t.heldWeight) (g := s.heldWeight)
    fun e other => h.heldWeight other
  unfold budgetLaw at hs ⊢
  omega

/-! ### The queue -/

theorem queueLaw_of_turn {d : Managed} {s t : State} (h : Turns d s t) (queue : t.rampQueue = s.rampQueue)
    (waits : (t.engine d).state = .waitBudget ↔ (s.engine d).state = .waitBudget) (hs : queueLaw s) : queueLaw t := by
  obtain ⟨nodup, mem⟩ := hs
  refine ⟨queue ▸ nodup, fun e => ?_⟩
  rw [queue, mem]
  by_cases same : e = d
  · subst e; exact waits.symm
  · rw [h.others e same]

/-- R75: a domain that did not wait joins the tail. -/
theorem queueLaw_of_join {d : Managed} {s t : State} (h : Turns d s t) (queue : t.rampQueue = s.rampQueue ++ [d])
    (before : (s.engine d).state ≠ .waitBudget) (after : (t.engine d).state = .waitBudget) (hs : queueLaw s) :
    queueLaw t := by
  obtain ⟨nodup, mem⟩ := hs
  have absent : d ∉ s.rampQueue := fun h => before ((mem d).1 h)
  refine ⟨?_, fun e => ?_⟩
  · rw [queue, List.nodup_append]
    exact ⟨nodup, List.nodup_singleton d, fun a ha b hb eq => absent (List.mem_singleton.1 hb ▸ eq ▸ ha)⟩
  · rw [queue, List.mem_append, List.mem_singleton]
    by_cases same : e = d
    · subst e; simp [after]
    · rw [mem, h.others e same]; simp [same]

/-- R76, R78: a domain that waits no more has left the queue, the others closing up. -/
theorem queueLaw_of_leave {d : Managed} {s t : State} (h : Turns d s t)
    (queue : t.rampQueue = s.rampQueue.filter fun e => e ≠ d) (after : (t.engine d).state ≠ .waitBudget)
    (hs : queueLaw s) : queueLaw t := by
  obtain ⟨nodup, mem⟩ := hs
  refine ⟨queue ▸ nodup.filter _, fun e => ?_⟩
  rw [queue, List.mem_filter, mem]
  by_cases same : e = d
  · subst e; simp [after]
  · rw [h.others e same]; simp [same]

/-- A turn in which no weight is taken or returned and no queue is joined or left. -/
theorem rampLaw_of_turn {d : Managed} {s t : State} (h : Turns d s t) (units : t.freeUnits = s.freeUnits)
    (queue : t.rampQueue = s.rampQueue)
    (weight : (t.engine d).state.holdsWeight = (s.engine d).state.holdsWeight)
    (waits : (t.engine d).state = .waitBudget ↔ (s.engine d).state = .waitBudget) (hs : rampLaw s) : rampLaw t := by
  refine ⟨budgetLaw_of_turn h ?_ hs.1, queueLaw_of_turn h queue waits hs.2⟩
  unfold State.heldWeight
  rw [units, weight, weight_congr h.records]

/-! ### Moves -/

theorem turns_moveEngine (d : Managed) (st : EngineState) (n : Option Nat) (s : State) :
    Turns d s (s.moveEngine d st n) :=
  ⟨rfl, fun _ other => engine_moveEngine_ne s other st n⟩

theorem turns_arrived (d : Managed) (level : Level) (s : State) : Turns d s (arrived d level s) :=
  ⟨rfl, fun _ other => engine_arrived_ne s other level⟩

theorem turns_setEngine (d : Managed) (e : Engine) (s : State) : Turns d s (s.setEngine d e) :=
  ⟨rfl, fun _ other => engine_setEngine_ne s other e⟩

theorem Turns.trans {d : Managed} {s t u : State} (h : Turns d s t) (k : Turns d t u) : Turns d s u :=
  ⟨k.records.trans h.records, fun e other => (k.others e other).trans (h.others e other)⟩

/-- One engine turns at a move. -/
theorem Move.turns {d : Managed} {s t : State} (h : Move d s t) : Turns d s t := by
  cases h with
  | log => exact ⟨rfl, fun _ _ => rfl⟩
  | queue => exact ⟨rfl, fun _ other => engine_enterQueue_ne s other⟩
  | grant => exact ⟨rfl, fun _ other => engine_moveEngine_ne _ other _ _⟩
  | settled => exact ⟨rfl, fun _ other => engine_arrived_ne _ other _⟩
  | reach => exact turns_arrived d _ s
  | withdraw => exact ⟨rfl, fun _ other => engine_arrived_ne _ other _⟩
  | complete => exact turns_setEngine d _ s
  | clear => exact (turns_setEngine d _ s).trans (turns_arrived d .off _)
  | _ => exact turns_moveEngine d _ _ s

/-- The states from which an arrival is made hold no weight and do not wait in the queue. -/
theorem Reaches.calm {s : State} {d : Managed} {level : Level} (h : Reaches s d level) :
    (s.engine d).state.holdsWeight = false ∧ (s.engine d).state ≠ .waitBudget := by
  cases h <;> simp [*, EngineState.holdsWeight]

theorem holdsWeight_level (level : Level) : level.engineState.holdsWeight = false := by cases level <;> rfl

theorem level_ne_waitBudget (level : Level) : level.engineState ≠ .waitBudget := by cases level <;> decide

/-- A move between two states that hold the same weight, neither in the queue. -/
theorem rampLaw_moveEngine {d : Managed} {st : EngineState} {n : Option Nat} {s : State}
    (weight : st.holdsWeight = (s.engine d).state.holdsWeight) (after : st ≠ .waitBudget)
    (before : (s.engine d).state ≠ .waitBudget) (hs : rampLaw s) : rampLaw (s.moveEngine d st n) :=
  rampLaw_of_turn (turns_moveEngine d st n s) rfl rfl (by rw [engine_moveEngine_self]; exact weight)
    (by rw [engine_moveEngine_self]; exact iff_of_false after before) hs

theorem rampLaw_arrived {d : Managed} {level : Level} {s : State} (weight : (s.engine d).state.holdsWeight = false)
    (before : (s.engine d).state ≠ .waitBudget) (hs : rampLaw s) : rampLaw (arrived d level s) :=
  rampLaw_of_turn (turns_arrived d level s) rfl rfl (by rw [engine_arrived_self, weight]; exact holdsWeight_level level)
    (by rw [engine_arrived_self]; exact iff_of_false (level_ne_waitBudget level) before) hs

theorem rampLaw_setEngine {d : Managed} {e : Engine} {s : State} (same : e.state = (s.engine d).state) (hs : rampLaw s) :
    rampLaw (s.setEngine d e) :=
  rampLaw_of_turn (turns_setEngine d e s) rfl rfl (by rw [engine_setEngine_self, same])
    (by rw [engine_setEngine_self, same]) hs

theorem heldWeight_of_state {s : State} {d : Managed} {st : EngineState} (at_ : (s.engine d).state = st) :
    s.heldWeight d = if st.holdsWeight = true then s.weight d else 0 := by
  unfold State.heldWeight
  rw [at_]

/-- R73, R77: the weight of a domain that holds none any more has returned. -/
theorem rampLaw_of_return {d : Managed} {s t : State} (h : Turns d s t) (queue : t.rampQueue = s.rampQueue)
    (units : t.freeUnits = s.freeUnits + s.heldWeight d) (weight : (t.engine d).state.holdsWeight = false)
    (after : (t.engine d).state ≠ .waitBudget) (before : (s.engine d).state ≠ .waitBudget) (hs : rampLaw s) :
    rampLaw t := by
  refine ⟨budgetLaw_of_turn h ?_ hs.1, queueLaw_of_turn h queue (iff_of_false after before) hs.2⟩
  have none : t.heldWeight d = 0 := by unfold State.heldWeight; rw [if_neg (by simp [weight])]
  rw [units, none, Nat.add_zero]

theorem ne_waitBudget_of_holdsWeight {e : EngineState} (h : e.holdsWeight = true) : e ≠ .waitBudget := by
  rintro rfl
  cases h

theorem filter_head {d : Managed} {rest : List Managed} (nodup : (d :: rest).Nodup) :
    (d :: rest).filter (fun e => e ≠ d) = rest := by
  obtain ⟨absent, _⟩ := List.nodup_cons.1 nodup
  rw [List.filter_cons_of_neg (by simp)]
  exact List.filter_eq_self.2 fun e he => by simpa using fun eq : e = d => absent (eq ▸ he)

/-- R76: the head of the queue leaves it and takes its weight. -/
theorem rampLaw_grant {d : Managed} {rest : List Managed} {n : Option Nat} {s : State} (head : s.rampQueue = d :: rest)
    (fits : s.weight d ≤ s.freeUnits) (hs : rampLaw s) :
    rampLaw (State.moveEngine d .railUp n { s with rampQueue := rest, freeUnits := s.freeUnits - s.weight d }) := by
  obtain ⟨budget, nodup, mem⟩ := hs
  have waits : (s.engine d).state = .waitBudget := (mem d).1 (by rw [head]; exact List.mem_cons_self)
  have turns : Turns d s
      (State.moveEngine d .railUp n { s with rampQueue := rest, freeUnits := s.freeUnits - s.weight d }) :=
    ⟨rfl, fun _ other => engine_moveEngine_ne _ other _ _⟩
  refine ⟨budgetLaw_of_turn turns ?_ budget, queueLaw_of_leave turns ?_ (by simp) ⟨nodup, mem⟩⟩
  · rw [heldWeight_of_state waits, heldWeight_of_state (st := .railUp) (by simp)]
    exact Nat.sub_add_cancel fits
  · rw [head, filter_head (head ▸ nodup)]
    rfl

/-- R75: a domain that waited for its parent joins the queue. -/
theorem rampLaw_enterQueue {d : Managed} {s : State} (at_ : (s.engine d).state = .waitParent) (hs : rampLaw s) :
    rampLaw (enterQueue d s) := by
  have turns : Turns d s (enterQueue d s) := ⟨rfl, fun _ other => engine_enterQueue_ne s other⟩
  refine ⟨budgetLaw_of_turn turns ?_ hs.1, queueLaw_of_join turns rfl (by rw [at_]; decide) (by simp) hs.2⟩
  rw [heldWeight_of_state at_, heldWeight_of_state (st := .waitBudget) (by simp)]
  rfl

/-- R78: a domain that waited in the queue has left it. -/
theorem rampLaw_withdraw {d : Managed} {s : State} (at_ : (s.engine d).state = .waitBudget) (hs : rampLaw s) :
    rampLaw (arrived d .off (withdraw d s)) := by
  have turns := (Move.withdraw at_).turns
  have off : ((arrived d .off (withdraw d s)).engine d).state = .off := by rw [engine_arrived_self]; rfl
  refine ⟨budgetLaw_of_turn turns ?_ hs.1, queueLaw_of_leave turns rfl (by rw [off]; decide) hs.2⟩
  rw [heldWeight_of_state at_, heldWeight_of_state off]
  rfl

theorem rampLaw_move {d : Managed} {s t : State} (h : Move d s t) (hs : rampLaw s) : rampLaw t := by
  cases h with
  | log => exact hs
  | rise _ at_ _ => exact rampLaw_moveEngine (by rw [at_]; rfl) (by decide) (by rw [at_]; decide) hs
  | queue at_ _ _ => exact rampLaw_enterQueue at_ hs
  | grant head fits => exact rampLaw_grant head fits hs
  | settle _ at_ _ => exact rampLaw_moveEngine (by rw [at_]; rfl) (by decide) (by rw [at_]; decide) hs
  | settled at_ =>
    exact rampLaw_of_return (Move.settled at_).turns rfl rfl (by rw [engine_arrived_self]; rfl)
      (by rw [engine_arrived_self]; exact level_ne_waitBudget .retain) (ne_waitBudget_of_holdsWeight at_) hs
  | clockUp _ at_ _ _ => exact rampLaw_moveEngine (by rw [at_]; rfl) (by decide) (by rw [at_]; decide) hs
  | boostUp _ at_ _ _ => exact rampLaw_moveEngine (by rw [at_]; rfl) (by decide) (by rw [at_]; decide) hs
  | boostDown _ at_ _ _ => exact rampLaw_moveEngine (by rw [at_]; rfl) (by decide) (by rw [at_]; decide) hs
  | drain _ at_ _ => exact rampLaw_moveEngine (by rw [at_]; rfl) (by decide) (by rw [at_]; decide) hs
  | reach reaches => exact rampLaw_arrived reaches.calm.1 reaches.calm.2 hs
  | withdraw at_ => exact rampLaw_withdraw at_ hs
  | complete => exact rampLaw_setEngine rfl hs
  | clear at_ _ =>
    have fault : ((s.setEngine d { s.engine d with drainComplete := false }).engine d).state = .fault := by
      rw [engine_setEngine_self]; exact at_
    refine rampLaw_arrived ?_ ?_ (rampLaw_setEngine rfl hs) <;> rw [fault]
    · rfl
    · decide

theorem rampLaw_moves {s t : State} (h : Moves s t) : rampLaw s → rampLaw t := h.keeps fun _ _ _ => rampLaw_move

/-! ### The fault event -/

theorem rampLaw_failEngine {d : Managed} (cause : FaultCause) {s : State} (before : (s.engine d).state ≠ .waitBudget)
    (hs : rampLaw s) : rampLaw (failEngine d cause s) := by
  have turns : Turns d s (failEngine d cause s) := ⟨rfl, fun _ other => engine_setEngine_ne _ other _⟩
  have fault : ((failEngine d cause s).engine d).state = .fault := by unfold failEngine; rw [engine_setEngine_self]
  exact rampLaw_of_return turns rfl rfl (by rw [fault]; rfl) (by rw [fault]; decide) before hs

/-- R84: the cut of a descendant with its rail on. -/
theorem rampLaw_cutRail {e : Managed} {n : Option Nat} {s : State} (rail : (s.engine e).state.outputs.railen = true)
    (hs : rampLaw s) : rampLaw ((returnWeight e s).moveEngine e .draining n) := by
  have turns : Turns e s ((returnWeight e s).moveEngine e .draining n) :=
    ⟨rfl, fun _ other => engine_moveEngine_ne _ other _ _⟩
  have drains : (((returnWeight e s).moveEngine e .draining n).engine e).state = .draining := by
    rw [engine_moveEngine_self]
  exact rampLaw_of_return turns rfl rfl (by rw [drains]; rfl) (by rw [drains]; decide)
    (fun waits => by rw [waits] at rail; cases rail) hs

/-- R84: what the cut of an engine does, by its state: nothing, an arrival at OFF, or the drain with its weight returned. -/
theorem cutEngine_cases (s : State) (e : Managed) :
    (cutEngine s e = s ∧ (s.engine e).state.fallen = true) ∨
    (cutEngine s e = arrive e .off s ∧ (s.engine e).state = .waitParent) ∨
    (cutEngine s e = arrive e .off (withdraw e s) ∧ (s.engine e).state = .waitBudget) ∨
    (cutEngine s e = (returnWeight e s).moveEngine e .draining ((s.record e).map DomainRecord.drain) ∧
      (s.engine e).state.outputs.railen = true) := by
  have weightless : (s.engine e).state.holdsWeight = false → returnWeight e s = s := fun h => by
    unfold returnWeight State.heldWeight
    rw [if_neg (by simp [h])]
    rfl
  unfold cutEngine
  split
  case h_1 at_ => exact .inl ⟨rfl, by rw [at_]; rfl⟩
  case h_2 at_ => exact .inr (.inl ⟨rfl, at_⟩)
  case h_3 at_ => exact .inr (.inr (.inl ⟨rfl, at_⟩))
  case h_4 at_ => exact .inr (.inr (.inr ⟨rfl, by rw [at_]; rfl⟩))
  case h_5 at_ => exact .inr (.inr (.inr ⟨rfl, by rw [at_]; rfl⟩))
  case h_12 at_ => exact .inl ⟨rfl, by rw [at_]; rfl⟩
  case h_13 at_ => exact .inl ⟨rfl, by rw [at_]; rfl⟩
  all_goals
    rename_i at_
    exact .inr (.inr (.inr ⟨by rw [weightless (by rw [at_]; rfl)], by rw [at_]; rfl⟩))

theorem rampLaw_cutEngine (s : State) (e : Managed) (hs : rampLaw s) : rampLaw (cutEngine s e) := by
  rcases cutEngine_cases s e with ⟨eq, _⟩ | ⟨eq, at_⟩ | ⟨eq, at_⟩ | ⟨eq, rail⟩ <;> rw [eq]
  · exact hs
  · exact rampLaw_moves (moves_arrive_of_reaches (.stopWaiting at_)) hs
  · exact rampLaw_moves (moves_arrive_withdraw at_) hs
  · exact rampLaw_cutRail rail hs

theorem rampLaw_leaseSide {s t : State} (h : leaseSide s t) (hs : rampLaw s) : rampLaw t := by
  unfold rampLaw budgetLaw queueLaw State.heldWeight at *
  rw [h.freeUnits, h.engine, weight_congr h.record, h.rampQueue]
  exact hs

/-- What the failing of an engine keeps and each cut keeps, all the cuts keep. -/
theorem cutAll_keeps {P : State → Prop} (each : ∀ s e, P s → P (cutEngine s e)) (l : List Managed) {s : State} (hs : P s) :
    P (l.foldl cutEngine s) := by
  induction l generalizing s with
  | nil => exact hs
  | cons e l ih => exact ih (each s e hs)

/-! ### Lists, SETUP and the arbiter, over every change -/

theorem list_placeLease (i : SlotId) (l : Lease) (s : State) (d : Managed) :
    (placeLease i l s).list d = if d = l.domain then s.list d ++ [i] else s.list d := by
  have lists : (placeLease i l s).list d = (s.setList l.domain (s.list l.domain ++ [i])).list d := by
    rw [placeLease_eq_withNewLease]
    rfl
  rw [lists, list_setList]
  split
  · subst d; rfl
  · rfl

/-- R28: a new live lease joins its domain's list. -/
theorem listLaw_placeLease {i : SlotId} {l : Lease} {s : State} (free : s.lease i = none) (live : l.live = true)
    (hs : listLaw s) : listLaw (placeLease i l s) := by
  intro d
  obtain ⟨nodup, mem⟩ := hs d
  have absent : i ∉ s.list d := fun h => by
    have on := (mem i).1 h
    simp [State.liveOn, free] at on
  have liveOn : ∀ j, (placeLease i l s).liveOn d j = if j = i then decide (l.domain = d) else s.liveOn d j := by
    intro j
    unfold State.liveOn
    rw [lease_placeLease]
    split
    · simp [live, Bool.beq_eq_decide_eq]
    · rfl
  rw [list_placeLease]
  split
  · rename_i same
    refine ⟨List.nodup_append.2 ⟨nodup, List.nodup_singleton i, ?_⟩, fun j => ?_⟩
    · exact fun a ha b hb eq => absent (List.mem_singleton.1 hb ▸ eq ▸ ha)
    · rw [List.mem_append, List.mem_singleton, mem, liveOn]
      by_cases here : j = i <;> simp [here, same]
  · rename_i other
    refine ⟨nodup, fun j => ?_⟩
    rw [liveOn]
    split
    · subst j; simpa [Ne.symm other] using absent
    · exact mem j

theorem listLaw_change {s t : State} (h : Change s t) (hs : listLaw s) : listLaw t := by
  cases h with
  | outside h _ => obtain ⟨_, _, _, _, _, _, _, _, _, rfl⟩ := h; exact hs
  | leases h => exact h.law hs
  | make _ free live _ _ => exact listLaw_placeLease free live hs
  | move h => obtain ⟨_, _, _, _, _, rfl⟩ := h.side; exact hs
  | @fault d cause _ =>
    obtain ⟨_, ⟨_, _, _, _, rfl⟩, leases⟩ := faultEvent_sides d cause s
    exact leases.law hs
  | reset =>
    intro d
    have list : (resetPart s).list d = [] := by simp [resetPart, logPins, State.list, State.reset]
    rw [list]
    exact ⟨List.nodup_nil, fun i => by simp [State.liveOn, lease_resetPart]⟩
  | _ => exact hs

theorem allDown_iff (s : State) : s.allDown = true ↔ ∀ d, (s.engine d).down = true := by
  unfold State.allDown
  rw [List.all_eq_true]
  exact ⟨fun h d => h d (mem_allManaged d), fun h d _ => h d⟩

theorem allDown_congr {s t : State} (h : ∀ d, (t.engine d).down = (s.engine d).down) : t.allDown = s.allDown := by
  rw [Bool.eq_iff_iff, allDown_iff, allDown_iff]
  simp only [h]

/-- A down engine is OFF or in FAULT. -/
theorem state_of_down {e : Engine} (h : e.down = true) : e.state = .off ∨ e.state = .fault := by
  unfold Engine.down at h
  split at h <;> simp_all

theorem not_down_of_canFail {e : Engine} (h : e.state.canFail = true) : e.down = false := by
  rw [Bool.eq_false_iff]
  intro down
  rcases state_of_down down with at_ | at_ <;> rw [at_] at h <;> cases h

/-- R167: with every domain down and nothing wanted, no move takes a domain up. -/
theorem allDown_move {d : Managed} {s t : State} (h : Move d s t) (queue : queueLaw s) (quiet : ∀ e, s.target e = .off)
    (down : s.allDown = true) : t.allDown = true := by
  rw [allDown_iff] at down ⊢
  have here := state_of_down (down d)
  have turned : (t.engine d).down = true := by
    cases h with
    | log => exact down d
    | rise _ _ wanted => exact absurd (quiet d) wanted
    | grant head _ =>
      have waits := (queue.2 d).1 (by rw [head]; exact List.mem_cons_self)
      simp [waits] at here
    | settled at_ => rcases here with eq | eq <;> rw [eq] at at_ <;> cases at_
    | reach reaches => cases reaches <;> simp [*] at here
    | complete at_ => unfold completeDrain; rw [engine_setEngine_self]; simp [Engine.down, at_]
    | clear => rw [engine_arrived_self]; rfl
    | queue at_ => simp [at_] at here
    | settle _ at_ => simp [at_] at here
    | clockUp _ at_ => simp [at_] at here
    | boostUp _ at_ => simp [at_] at here
    | boostDown _ at_ => simp [at_] at here
    | drain _ at_ => simp [at_] at here
    | withdraw at_ => simp [at_] at here
  intro e
  by_cases same : e = d
  · subst e; exact turned
  · rw [h.turns.others e same]; exact down e

theorem setupLaw_leaseSide {s t : State} (h : leaseSide s t) (hs : setupLaw s) : setupLaw t := by
  have down : t.allDown = s.allDown := allDown_congr fun d => by rw [h.engine]
  unfold setupLaw at *
  rw [h.partState, down]
  exact hs

/-- R83: a fault event leaves the part state. -/
theorem partState_faultEvent (d : Managed) (cause : FaultCause) (s : State) :
    (faultEvent d cause s).partState = s.partState := by
  obtain ⟨_, ⟨_, _, _, _, rfl⟩, leases⟩ := faultEvent_sides d cause s
  exact leases.side.partState

theorem down_lowerTimers (s : State) (d : Managed) : ((lowerTimers s).engine d).down = (s.engine d).down := by
  rw [engine_lowerTimers]
  rfl

theorem engine_resetPart (s : State) (d : Managed) : (resetPart s).engine d = Engine.reset := by
  simp [resetPart, logPins, State.engine, State.reset]

/-- The arbiter's laws with those of the lists, the slots and SETUP that they rest on. -/
def arbiterLaw (s : State) : Prop := listLaw s ∧ emptyLaw s ∧ setupLaw s ∧ rampLaw s

theorem setupLaw_change {s t : State} (h : Change s t) (hs : arbiterLaw s) : setupLaw t := by
  obtain ⟨lists, empty, quiet, _, queue⟩ := hs
  cases h with
  | outside h _ => obtain ⟨_, _, _, _, _, _, _, _, _, rfl⟩ := h; exact quiet
  | leases h => exact setupLaw_leaseSide h.side quiet
  | make => exact setupLaw_leaseSide (leaseSide_placeLease _ _ s) quiet
  | start => exact fun setup => by cases setup
  | stop => exact fun setup => by cases setup
  | stopped _ down => exact fun _ => down
  | move h =>
    intro setup
    have side := h.side
    have before : s.partState = .setup := by obtain ⟨_, _, _, _, _, rfl⟩ := side; exact setup
    exact allDown_move h queue (target_eq_off_of_setup empty lists quiet before) (quiet before)
  | @fault d cause fails =>
    intro setup
    rw [partState_faultEvent] at setup
    have down := (allDown_iff s).1 (quiet setup) d
    rw [not_down_of_canFail fails] at down
    cases down
  | timers => exact fun setup => (allDown_congr (down_lowerTimers s)).trans (quiet setup)
  | reset => exact fun _ => (allDown_iff _).2 fun d => by rw [engine_resetPart]; rfl
  | _ => exact quiet

theorem heldWeight_of_down {s : State} {d : Managed} (down : (s.engine d).down = true) : s.heldWeight d = 0 := by
  rcases state_of_down down with at_ | at_ <;> rw [heldWeight_of_state at_] <;> rfl

/-- R172: while every domain is down no domain holds its weight, whatever its record. -/
theorem rampLaw_setRecord {s : State} (d : Managed) (r : Option DomainRecord) (down : s.allDown = true) (hs : rampLaw s) :
    rampLaw (s.setRecord d r) := by
  have none : ∀ e, (s.setRecord d r).heldWeight e = s.heldWeight e := fun e => by
    rw [heldWeight_of_down ((allDown_iff s).1 down e), heldWeight_of_down (by exact (allDown_iff s).1 down e)]
  refine ⟨?_, hs.2⟩
  unfold budgetLaw
  rw [funext none]
  exact hs.1

theorem rampLaw_of_engines {s t : State} (records : t.record = s.record)
    (engines : ∀ d, (t.engine d).state = (s.engine d).state) (units : t.freeUnits = s.freeUnits)
    (queue : t.rampQueue = s.rampQueue) (hs : rampLaw s) : rampLaw t := by
  unfold rampLaw budgetLaw queueLaw State.heldWeight at *
  simp only [engines, weight_congr records, units, queue]
  exact hs

theorem rampLaw_lowerTimers {s : State} (hs : rampLaw s) : rampLaw (lowerTimers s) :=
  rampLaw_of_engines (record_lowerTimers s) (fun d => by rw [engine_lowerTimers]) (by simp only [lowerTimers])
    (by simp only [lowerTimers]) hs

theorem rampLaw_faultEvent {s : State} {d : Managed} (cause : FaultCause) (fails : (s.engine d).state.canFail = true)
    (hs : rampLaw s) : rampLaw (faultEvent d cause s) := by
  have failed := rampLaw_failEngine cause (d := d) (fun waits => by rw [waits] at fails; cases fails) hs
  exact rampLaw_leaseSide (leases_after_cut d cause s).side (cutAll_keeps rampLaw_cutEngine (s.descendants d) failed)

theorem rampLaw_resetPart (s : State) : rampLaw (resetPart s) := by
  have state : ∀ d, ((resetPart s).engine d).state = .off := fun d => by rw [engine_resetPart]; rfl
  refine ⟨?_, ?_, fun d => ?_⟩
  · have none : (resetPart s).heldWeight = fun _ => 0 := funext fun d => by rw [heldWeight_of_state (state d)]; rfl
    unfold budgetLaw
    rw [none]
    rfl
  · exact List.nodup_nil
  · rw [state]
    exact iff_of_false (List.not_mem_nil) (by decide)

theorem rampLaw_change {s t : State} (h : Change s t) (setup : s.partState = .setup → s.allDown = true)
    (hs : rampLaw s) : rampLaw t := by
  cases h with
  | outside h _ => obtain ⟨_, _, _, _, _, _, _, _, _, rfl⟩ := h; exact hs
  | record inSetup => exact rampLaw_setRecord _ _ (setup inSetup) hs
  | leases h => exact rampLaw_leaseSide h.side hs
  | make => exact rampLaw_leaseSide (leaseSide_placeLease _ _ s) hs
  | move h => exact rampLaw_move h hs
  | @fault d cause fails => exact rampLaw_faultEvent cause fails hs
  | timers => exact rampLaw_lowerTimers hs
  | reset => exact rampLaw_resetPart s
  | _ => exact hs

theorem arbiterLaw_change {s t : State} (h : Change s t) (hs : arbiterLaw s) : arbiterLaw t := by
  have setup := setupLaw_change h hs
  obtain ⟨lists, empty, quiet, ramp⟩ := hs
  exact ⟨listLaw_change h lists, emptyLaw_change h empty, setup, rampLaw_change h quiet ramp⟩

end Sys2Proof.Machine
end

section
/-! No domain keeps its rail below its parent's floor, and no lease or rail stands under a fault (R7, R12, R49, R84, R91). -/

namespace Sys2Proof.Machine

/-! ### The tree under the laws -/

theorem ancestorsWithin_congr {s t : State} (records : t.record = s.record) (n : Nat) (d : Managed) :
    t.ancestorsWithin n d = s.ancestorsWithin n d := by
  have parent : t.parent? = s.parent? := by funext e; unfold State.parent?; rw [place_congr records]
  induction n generalizing d with
  | zero => rfl
  | succ n ih =>
    unfold State.ancestorsWithin
    rw [parent]
    split
    · rw [ih]
    · rfl

theorem ancestors_congr {s t : State} (records : t.record = s.record) : t.ancestors = s.ancestors :=
  funext fun d => ancestorsWithin_congr records Config.treeDepth d

/-- A walk of as many steps as the domain's number is not cut short. -/
theorem ancestorsWithin_stable (s : State) : ∀ (d : Managed) (n m : Nat), d.val ≤ n → d.val ≤ m →
    s.ancestorsWithin n d = s.ancestorsWithin m d := by
  intro d
  induction d using WellFoundedLT.induction with
  | ind d ih =>
    intro n m hn hm
    cases parent : s.parent? d with
    | none => cases n <;> cases m <;> simp [State.ancestorsWithin, parent]
    | some p =>
      obtain ⟨floor, place⟩ := (parent?_eq_some_iff s d p).1 parent
      have lower : p.val < d.val := parent_lt place
      obtain ⟨n, rfl⟩ : ∃ k, n = k + 1 := ⟨n - 1, by omega⟩
      obtain ⟨m, rfl⟩ : ∃ k, m = k + 1 := ⟨m - 1, by omega⟩
      simp only [State.ancestorsWithin, parent]
      rw [ih p lower n m (by omega) (by omega)]

/-- R1: the ancestors of a child are its parent and the parent's ancestors. -/
theorem ancestors_of_place {s : State} {e m : Managed} {floor : Level} (place : s.place e = some (managedDomain m, floor)) :
    s.ancestors e = m :: s.ancestors m := by
  have parent : s.parent? e = some m := (parent?_eq_some_iff s e m).2 ⟨floor, place⟩
  have lower : m.val < e.val := parent_lt place
  have walk : s.ancestors e = m :: s.ancestorsWithin 14 m := by
    simp only [State.ancestors, Config.treeDepth, State.ancestorsWithin, parent]
  rw [walk, State.ancestors, ancestorsWithin_stable s m 14 Config.treeDepth (by omega) (by simp only [Config.treeDepth]; omega)]

theorem faultAtOrAbove_iff (s : State) (d : Managed) :
    s.faultAtOrAbove d = true ↔ ∃ a, (a = d ∨ a ∈ s.ancestors d) ∧ (s.engine a).state = .fault := by
  unfold State.faultAtOrAbove
  rw [Bool.or_eq_true, beq_iff_eq, List.any_eq_true]
  constructor
  · rintro (here | ⟨a, mem, fault⟩)
    · exact ⟨d, .inl rfl, here⟩
    · exact ⟨a, .inr mem, by simpa using fault⟩
  · rintro ⟨a, rfl | mem, fault⟩
    · exact .inl fault
    · exact .inr ⟨a, mem, by simpa using fault⟩

/-- Where no engine enters FAULT, no subtree does. -/
theorem faultAtOrAbove_mono {s t : State} (records : t.record = s.record)
    (faults : ∀ a, (t.engine a).state = .fault → (s.engine a).state = .fault) {d : Managed}
    (h : t.faultAtOrAbove d = true) : s.faultAtOrAbove d = true := by
  rw [faultAtOrAbove_iff, ancestors_congr records] at h
  obtain ⟨a, above, fault⟩ := h
  exact (faultAtOrAbove_iff s d).2 ⟨a, above, faults a fault⟩

theorem below_iff (s : State) (d e : Managed) : s.below d e = true ↔ d ∈ s.ancestors e := by
  simp [State.below]

theorem mem_descendants (s : State) (d e : Managed) : e ∈ s.descendants d ↔ d ∈ s.ancestors e := by
  simp [State.descendants, mem_allManaged, below_iff]

/-! ### What the states say -/

theorem not_down_of_relies {e : Engine} (h : e.state.relies = true) : e.down = false := by
  rw [Bool.eq_false_iff]
  intro down
  rcases state_of_down down with at_ | at_ <;> rw [at_] at h <;> cases h

theorem not_fallen_of_relies {e : EngineState} (h : e.relies = true) : e.fallen = false := by
  revert h
  cases e <;> decide

theorem assured_of_holdsWeight {e : EngineState} (h : e.holdsWeight = true) : e.assured = .off := by
  revert h
  cases e <;> decide

theorem assured_arrived (d : Managed) (level : Level) (s : State) :
    ((arrived d level s).engine d).state.assured = level := by
  rw [engine_arrived_self]
  cases level <;> rfl

theorem fallen_of_down {e : Engine} (h : e.down = true) : e.state.fallen = true := by
  rcases state_of_down h with at_ | at_ <;> rw [at_] <;> rfl

/-! ### The floor under a parent that steps down (R12, R13, R53) -/

theorem place_of_record {s : State} (ranges : recordLaw s) {e m : Managed} {r : DomainRecord} (record : s.record e = some r)
    (parent : r.parent = managedDomain m) (known : s.record m ≠ none) :
    s.place e = some (managedDomain m, r.floor) := by
  refine (place_eq_some_iff s e _ _).2 ⟨r, record, parent, rfl, ?_, ?_⟩
  · rw [← parent]; exact (ranges e r record).1
  · exact (defined_iff s _).2 (.inr ⟨m, rfl, known⟩)

/-- R13, R14: while a domain stands under no fault, its target meets the floor of every child that is not down. -/
theorem floor_le_target {s : State} {d c : Managed} {floor : Level} (sound : s.faultAtOrAbove d = false)
    (place : s.place c = some (managedDomain d, floor)) (up : (s.engine c).down = false) :
    floor.num ≤ (s.target d).num := by
  rw [target_eq, if_neg (by simp [sound])]
  refine le_greatest (List.mem_append_right _ (List.mem_map.2 ⟨(c, floor), List.mem_filter.2 ⟨?_, ?_⟩, rfl⟩))
  · exact (mem_children_iff_place s _ c floor).2 place
  · simp [up]

theorem target_of_fault {s : State} {d : Managed} (h : s.faultAtOrAbove d = true) : s.target d = .off := by
  rw [target_eq, if_pos h]

/-! ### What a move may do to the engine that moves -/

/-- Who moves is not OFF, or is defined. -/
theorem Move.defined {d : Managed} {s t : State} (h : Move d s t) (queue : queueLaw s) :
    t.engine d = s.engine d ∨ (s.engine d).state ≠ .off ∨ s.record d ≠ none := by
  cases h with
  | log => exact .inl rfl
  | grant head _ => exact .inr (.inl (by rw [(queue.2 d).1 (by rw [head]; exact List.mem_cons_self)]; decide))
  | settled at_ => exact .inr (.inl fun off => by rw [off] at at_; cases at_)
  | reach reaches => exact .inr (.inl (by cases reaches <;> simp [*]))
  | _ => exact .inr (by simp [*])

/-- No move leads into FAULT. -/
theorem Move.fault {d : Managed} {s t : State} (h : Move d s t) (fault : (t.engine d).state = .fault) :
    (s.engine d).state = .fault := by
  cases h with
  | log => exact fault
  | complete at_ => exact at_
  | clear at_ => exact at_
  | reach reaches => cases reaches <;> simp [Level.engineState] at fault
  | _ => simp [Level.engineState] at fault

/-- A domain that is not OFF, draining or in FAULT after a move was not so before, or something wants it. -/
theorem Move.sound {d : Managed} {s t : State} (h : Move d s t) (queue : queueLaw s) :
    (t.engine d).state.fallen = true ∨ (s.engine d).state.fallen = false ∨ s.target d ≠ .off := by
  cases h with
  | log =>
    rcases Bool.eq_false_or_eq_true (s.engine d).state.fallen with fallen | standing
    · exact .inl fallen
    · exact .inr (.inl standing)
  | rise _ _ wanted => exact .inr (.inr wanted)
  | grant head _ => exact .inr (.inl (by rw [(queue.2 d).1 (by rw [head]; exact List.mem_cons_self)]; rfl))
  | settled at_ => exact .inr (.inl (by revert at_; cases (s.engine d).state <;> decide))
  | reach reaches => cases reaches <;> simp [*, EngineState.fallen, Level.engineState]
  | complete at_ => exact .inl (by unfold completeDrain; rw [engine_setEngine_self]; dsimp only; rw [at_]; rfl)
  | _ => simp [*, EngineState.fallen, Level.engineState]

/-- R12: a domain that begins to rely on its parent has its floor met. -/
theorem Move.relies {d : Managed} {s t : State} (h : Move d s t) (queue : queueLaw s)
    (relies : (t.engine d).state.relies = true) :
    (s.engine d).state.relies = true ∨ ∃ p floor, s.place d = some (p, floor) ∧ floor.num ≤ (s.assured p).num := by
  cases h with
  | log => exact .inl relies
  | queue _ place met => exact .inr ⟨_, _, place, met⟩
  | grant head _ => exact .inl (by rw [(queue.2 d).1 (by rw [head]; exact List.mem_cons_self)]; rfl)
  | settled at_ => exact .inl (by revert at_; cases (s.engine d).state <;> decide)
  | reach reaches =>
    cases reaches <;> simp_all [EngineState.relies, EngineState.outputs, Outputs.off, Level.engineState]
  | complete at_ => exact .inl (by unfold completeDrain at relies; rw [engine_setEngine_self] at relies; exact relies)
  | _ => simp_all [EngineState.relies, EngineState.outputs, Outputs.off, Level.engineState]

/-- R13, R53, R61, R63: a domain that steps down does so to its target or above it. -/
theorem Move.assured {d : Managed} {s t : State} (h : Move d s t) (queue : queueLaw s) :
    (s.engine d).state.assured.num ≤ (t.engine d).state.assured.num ∨
    ((s.engine d).state.fallen = false ∧ s.record d ≠ none ∧ (s.target d).num ≤ (t.engine d).state.assured.num) := by
  cases h with
  | log => exact .inl le_rfl
  | grant head _ => exact .inl (by rw [(queue.2 d).1 (by rw [head]; exact List.mem_cons_self)]; exact Nat.zero_le _)
  | settled at_ => exact .inl (by rw [assured_of_holdsWeight at_]; exact Nat.zero_le _)
  | complete at_ => exact .inl (by rw [at_]; exact Nat.zero_le _)
  | clear at_ => exact .inl (by rw [at_]; exact Nat.zero_le _)
  | withdraw at_ => exact .inl (by rw [at_]; exact Nat.zero_le _)
  | rise _ at_ => exact .inl (by rw [at_]; exact Nat.zero_le _)
  | queue at_ => exact .inl (by rw [at_]; exact Nat.zero_le _)
  | settle _ at_ => exact .inl (by rw [at_]; exact Nat.zero_le _)
  | clockUp _ at_ => exact .inl (by simp [at_, EngineState.assured])
  | boostUp _ at_ => exact .inl (by simp [at_, EngineState.assured])
  | boostDown record at_ below =>
    exact .inr ⟨by rw [at_]; rfl, by rw [record]; simp, by rw [engine_moveEngine_self]; exact Nat.le_of_lt_succ below⟩
  | drain record at_ below =>
    exact .inr ⟨by rw [at_]; rfl, by rw [record]; simp, by rw [engine_moveEngine_self]; exact Nat.le_of_lt_succ below⟩
  | reach reaches =>
    rw [assured_arrived]
    cases reaches with
    | clock at_ => exact .inl (by rw [at_]; decide)
    | boostAtOnce _ at_ => exact .inl (by rw [at_]; decide)
    | boost at_ => exact .inl (by rw [at_]; decide)
    | runAtOnce record at_ below => exact .inr ⟨by rw [at_]; rfl, by rw [record]; simp, Nat.le_of_lt_succ below⟩
    | run at_ => exact .inl (by rw [at_]; decide)
    | retain record at_ below => exact .inr ⟨by rw [at_]; rfl, by rw [record]; simp, Nat.le_of_lt_succ below⟩
    | drained at_ => exact .inl (by rw [at_]; decide)
    | stopWaiting at_ => exact .inl (by rw [at_]; decide)

/-! ### Moves keep the laws -/

/-- The laws of the statement, as they stand in it. -/
def subtreeLaw (s : State) : Prop :=
  recordLaw s ∧ listLaw s ∧ emptyLaw s ∧ definedLaw s ∧ setupLaw s ∧ rampLaw s ∧ faultLaw s ∧ floorLaw s

theorem assured_of_turn {d : Managed} {s t : State} (h : Turns d s t) {p : Domain} (other : p ≠ managedDomain d) :
    t.assured p = s.assured p := by
  unfold State.assured
  cases managed : asManaged p with
  | none => rfl
  | some m =>
    have apart : m ≠ d := fun eq => other (eq ▸ asManaged_eq_some.1 managed)
    dsimp only
    rw [h.others m apart]

theorem definedLaw_move {d : Managed} {s t : State} (h : Move d s t) (queue : queueLaw s) (hs : definedLaw s) :
    definedLaw t := by
  intro e undefined
  rw [h.turns.records] at undefined
  have off := hs e undefined
  by_cases same : e = d
  · subst e
    rcases h.defined queue with eq | up | known
    · rw [eq]; exact off
    · exact absurd off up
    · exact absurd undefined known
  · rw [h.turns.others e same]; exact off

theorem list_of_move {d : Managed} {s t : State} (h : Move d s t) : t.list = s.list := by
  obtain ⟨_, _, _, _, _, rfl⟩ := h.side
  rfl

theorem faultLaw_move {d : Managed} {s t : State} (h : Move d s t) (queue : queueLaw s) (hs : faultLaw s) : faultLaw t := by
  intro e faulted
  have before : s.faultAtOrAbove e = true := by
    refine faultAtOrAbove_mono h.turns.records (fun a fault => ?_) faulted
    by_cases same : a = d
    · subst a; exact h.fault fault
    · rwa [h.turns.others a same] at fault
  obtain ⟨list, fallen⟩ := hs e before
  refine ⟨(congrFun (list_of_move h) e).trans list, ?_⟩
  by_cases same : e = d
  · subst e
    rcases h.sound queue with after | up | wanted
    · exact after
    · rw [fallen] at up; cases up
    · exact absurd (target_of_fault before) wanted
  · rw [h.turns.others e same]; exact fallen

/-- R12: after a move of its parent a domain's floor is still met: the parent stepped down no lower than its target. -/
theorem floor_of_parent_move {d : Managed} {s t : State} (h : Move d s t) (laws : subtreeLaw s) {e : Managed}
    {r : DomainRecord} (record : s.record e = some r) (parent : r.parent = managedDomain d)
    (relies : (s.engine e).state.relies = true) (met : r.floor.num ≤ (s.assured r.parent).num) :
    r.floor.num ≤ (t.assured r.parent).num := by
  obtain ⟨ranges, _, _, _, _, ⟨_, queue⟩, faults, _⟩ := laws
  rw [parent, assured_managedDomain] at met ⊢
  rcases h.assured queue with up | ⟨standing, known, above⟩
  · exact met.trans up
  · have sound : s.faultAtOrAbove d = false := by
      rw [Bool.eq_false_iff]
      intro faulted
      rw [(faults d faulted).2] at standing
      cases standing
    exact (floor_le_target sound (place_of_record ranges record parent known) (not_down_of_relies relies)).trans above

theorem floorLaw_move {d : Managed} {s t : State} (h : Move d s t) (laws : subtreeLaw s) : floorLaw t := by
  have ⟨ranges, _, _, _, _, ⟨_, queue⟩, _, floors⟩ := laws
  intro e relies r record
  rw [h.turns.records] at record
  have turn : ∀ p, p ≠ managedDomain d → t.assured p = s.assured p := fun p => assured_of_turn h.turns
  by_cases same : e = d
  · subst e
    have apart : r.parent ≠ managedDomain d := fun eq => by
      have lower := (ranges d r record).1
      rw [eq, val_managedDomain] at lower
      omega
    rw [turn _ apart]
    rcases h.relies queue relies with relied | ⟨p, floor, place, met⟩
    · exact floors d relied r record
    · obtain ⟨r', record', rfl, rfl, _⟩ := (place_eq_some_iff s d p floor).1 place
      cases record.symm.trans record'
      exact met
  · rw [h.turns.others e same] at relies
    have met := floors e relies r record
    by_cases parent : r.parent = managedDomain d
    · exact floor_of_parent_move h laws record parent relies met
    · rw [turn _ parent]; exact met

end Sys2Proof.Machine
end

section
/-! The fault event: the failing domain and its descendants are cut, and none of them keeps a live lease (R38, R83, R84, R91). -/

namespace Sys2Proof.Machine

/-! ### The cut of one descendant -/

theorem foldl_of_fixed {α β : Type} {f : α → β → α} {a : α} {l : List β} (fixed : ∀ b ∈ l, f a b = a) : l.foldl f a = a := by
  induction l with
  | nil => rfl
  | cons b l ih =>
    rw [List.foldl_cons, fixed b List.mem_cons_self]
    exact ih fun c hc => fixed c (List.mem_cons_of_mem b hc)

/-- R4, R52: an arrival at OFF releases no child, since no floor is OFF. -/
theorem enterLevel_off {s : State} (ranges : recordLaw s) (e : Managed) : enterLevel e .off s = arrived e .off s := by
  refine foldl_of_fixed fun c child => ?_
  obtain ⟨r, record, _, floor, _⟩ := (place_eq_some_iff s c.1 _ c.2).1 ((mem_children_iff_place s _ c.1 c.2).1 child)
  have up : 1 ≤ c.2.num := ne_off_iff.1 (floor ▸ (ranges c.1 r record).2.1)
  have off : ((arrived e .off s).assuredOf e).num = 0 := by rw [State.assuredOf, assured_arrived]; rfl
  unfold releaseChild
  rw [if_neg]
  rintro ⟨_, met⟩
  change c.2.num ≤ ((arrived e .off s).assuredOf e).num at met
  omega

/-- R14, R52: an arrival at OFF under a fault begins no rise. -/
theorem arrive_off_of_fault {s : State} (ranges : recordLaw s) {e : Managed}
    (faulted : (arrived e .off s).faultAtOrAbove e = true) : arrive e .off s = arrived e .off s := by
  have target := target_of_fault faulted
  unfold arrive Config.chainBound arriveWithin
  rw [enterLevel_off ranges]
  unfold beginStep
  split
  · rfl
  · simp [target]

/-- A fault above a domain stands above it still when the domain, not in FAULT itself, arrives at OFF. -/
theorem faultAtOrAbove_arrived {s : State} {e : Managed} (sound : (s.engine e).state ≠ .fault)
    (above : ∃ a ∈ s.ancestors e, (s.engine a).state = .fault) : (arrived e .off s).faultAtOrAbove e = true := by
  obtain ⟨a, mem, fault⟩ := above
  have apart : a ≠ e := fun eq => sound (eq ▸ fault)
  refine (faultAtOrAbove_iff _ e).2 ⟨a, .inr ?_, ?_⟩
  · rwa [ancestors_congr (turns_arrived e .off s).records]
  · rwa [engine_arrived_ne s apart]

theorem cut_of_fallen {e : Engine} (h : e.state.fallen = true) (drain : Option Nat) : e.cut drain = e := by
  unfold Engine.cut
  split <;> simp_all [EngineState.fallen]

theorem cut_of_rail {e : Engine} (h : e.state.outputs.railen = true) (drain : Option Nat) :
    e.cut drain = { e with state := .draining, timer := drain } := by
  unfold Engine.cut
  split <;> simp_all [EngineState.outputs, Outputs.off]

theorem cut_of_waiting {e : Engine} (h : e.state = .waitParent ∨ e.state = .waitBudget) (drain : Option Nat) :
    e.cut drain = { e with state := .off, timer := none } := by
  unfold Engine.cut
  rcases h with at_ | at_ <;> rw [at_]

/-- R84: the cut of a domain under a fault changes its engine as the rule says, and no other engine. -/
theorem engine_cutEngine {s : State} (ranges : recordLaw s) {e : Managed}
    (above : ∃ a ∈ s.ancestors e, (s.engine a).state = .fault) (j : Managed) :
    (cutEngine s e).engine j =
      if j = e then (s.engine e).cut ((s.record e).map DomainRecord.drain) else s.engine j := by
  rcases cutEngine_cases s e with ⟨eq, fallen⟩ | ⟨eq, at_⟩ | ⟨eq, at_⟩ | ⟨eq, rail⟩ <;> rw [eq]
  · rw [cut_of_fallen fallen]
    split
    · subst j; rfl
    · rfl
  · rw [arrive_off_of_fault ranges (faultAtOrAbove_arrived (by rw [at_]; decide) above), cut_of_waiting (.inl at_)]
    split
    · subst j; exact engine_arrived_self s e .off
    · rename_i other; exact engine_arrived_ne s other .off
  · have faulted : (arrived e .off (withdraw e s)).faultAtOrAbove e = true :=
      faultAtOrAbove_arrived (s := withdraw e s) (fun fault => absurd (at_.symm.trans fault) (by decide)) above
    rw [arrive_off_of_fault (s := withdraw e s) ranges faulted, cut_of_waiting (.inr at_)]
    split
    · subst j; exact engine_arrived_self (withdraw e s) e .off
    · rename_i other; exact engine_arrived_ne (withdraw e s) other .off
  · rw [cut_of_rail rail]
    split
    · subst j; exact engine_moveEngine_self _ _ _ _
    · rename_i other; exact engine_moveEngine_ne _ other _ _

theorem cut_fallen (e : Engine) (drain : Option Nat) : (e.cut drain).state.fallen = true := by
  unfold Engine.cut
  split <;> simp [*, EngineState.fallen]

theorem cut_fault_iff (e : Engine) (drain : Option Nat) : (e.cut drain).state = .fault ↔ e.state = .fault := by
  unfold Engine.cut
  split <;> simp_all

theorem cut_off {e : Engine} (h : e.state = .off) (drain : Option Nat) : (e.cut drain).state = .off := by
  rw [cut_of_fallen (by rw [h]; rfl), h]

/-! ### The cut of all descendants -/

/-- R84: several domains under faults are cut, each once. -/
theorem engine_cutAll {l : List Managed} (nodup : l.Nodup) {s : State} (ranges : recordLaw s)
    (above : ∀ e ∈ l, ∃ a ∈ s.ancestors e, (s.engine a).state = .fault) (j : Managed) :
    (l.foldl cutEngine s).engine j =
      if j ∈ l then (s.engine j).cut ((s.record j).map DomainRecord.drain) else s.engine j := by
  induction l generalizing s with
  | nil => simp
  | cons e l ih =>
    obtain ⟨absent, nodup⟩ := List.nodup_cons.1 nodup
    have records : (cutEngine s e).record = s.record := (engineSide_cutEngine s e).record
    have here := engine_cutEngine ranges (above e List.mem_cons_self)
    have ranges' : recordLaw (cutEngine s e) := by unfold recordLaw; rw [records]; exact ranges
    have above' : ∀ f ∈ l, ∃ a ∈ (cutEngine s e).ancestors f, ((cutEngine s e).engine a).state = .fault := by
      intro f mem
      obtain ⟨a, up, fault⟩ := above f (List.mem_cons_of_mem e mem)
      refine ⟨a, by rwa [ancestors_congr records], ?_⟩
      rw [here]
      split
      · subst a; exact (cut_fault_iff _ _).2 fault
      · exact fault
    rw [List.foldl_cons, ih nodup ranges' above', records, here]
    by_cases same : j = e
    · subst e; simp [absent]
    · simp [same]

theorem descendants_nodup (s : State) (d : Managed) : (s.descendants d).Nodup :=
  List.Nodup.filter _ (by decide)

/-- The state after the failing of d and the cuts, before any lease ends. -/
def cutState (d : Managed) (cause : FaultCause) (s : State) : State :=
  (s.descendants d).foldl cutEngine (failEngine d cause s)

theorem engine_failEngine (d : Managed) (cause : FaultCause) (s : State) (j : Managed) :
    (failEngine d cause s).engine j = if j = d then
      { state := .fault, timer := (s.record d).map DomainRecord.drain, cause := some cause, drainComplete := false }
    else s.engine j :=
  engine_setEngine (returnWeight d s) j d _

/-- R83, R84: the engines after the failing of d and the cuts. -/
theorem engine_cutState {s : State} (ranges : recordLaw s) (d : Managed) (cause : FaultCause) (j : Managed) :
    (cutState d cause s).engine j =
      if d ∈ s.ancestors j then ((failEngine d cause s).engine j).cut ((s.record j).map DomainRecord.drain)
      else (failEngine d cause s).engine j := by
  have records : (failEngine d cause s).record = s.record := (engineSide_failEngine d cause s).record
  have failed : recordLaw (failEngine d cause s) := by unfold recordLaw; rw [records]; exact ranges
  have above : ∀ e ∈ s.descendants d, ∃ a ∈ (failEngine d cause s).ancestors e,
      ((failEngine d cause s).engine a).state = .fault := by
    intro e mem
    refine ⟨d, by rw [ancestors_congr records]; exact (mem_descendants s d e).1 mem, ?_⟩
    rw [engine_failEngine, if_pos rfl]
  rw [cutState, engine_cutAll (descendants_nodup s d) failed above]
  simp only [mem_descendants, records]

/-- Outside the failing subtree no engine changes. -/
theorem engine_cutState_outside {s : State} (ranges : recordLaw s) {d j : Managed} (cause : FaultCause) (other : j ≠ d)
    (outside : d ∉ s.ancestors j) : (cutState d cause s).engine j = s.engine j := by
  rw [engine_cutState ranges, if_neg outside, engine_failEngine, if_neg other]

/-- R84: the failing subtree is OFF, draining or in FAULT. -/
theorem fallen_cutState {s : State} (ranges : recordLaw s) {d j : Managed} (cause : FaultCause)
    (inside : j = d ∨ d ∈ s.ancestors j) : ((cutState d cause s).engine j).state.fallen = true := by
  rw [engine_cutState ranges]
  split
  · exact cut_fallen _ _
  · rename_i outside
    rcases inside with rfl | below
    · rw [engine_failEngine, if_pos rfl]; rfl
    · exact absurd below outside

theorem fault_cutState {s : State} (ranges : recordLaw s) {d j : Managed} {cause : FaultCause}
    (fault : ((cutState d cause s).engine j).state = .fault) : j = d ∨ (s.engine j).state = .fault := by
  have failed : ((failEngine d cause s).engine j).state = .fault := by
    rw [engine_cutState ranges] at fault
    split at fault
    · exact (cut_fault_iff _ _).1 fault
    · exact fault
  by_cases same : j = d
  · exact .inl same
  · rw [engine_failEngine, if_neg same] at failed; exact .inr failed

theorem off_cutState {s : State} (ranges : recordLaw s) {d j : Managed} (cause : FaultCause) (other : j ≠ d)
    (off : (s.engine j).state = .off) : ((cutState d cause s).engine j).state = .off := by
  have same : (failEngine d cause s).engine j = s.engine j := by rw [engine_failEngine, if_neg other]
  rw [engine_cutState ranges, same]
  split
  · exact cut_off off _
  · exact off

theorem engineSide_cutState (d : Managed) (cause : FaultCause) (s : State) : engineSide s (cutState d cause s) :=
  engineSide_cutAll d cause s

/-! ### The leases of the failing subtree (R38) -/

theorem LeasesFrom.dead {s t : State} (h : LeasesFrom s t) {i : SlotId} (dead : s.liveAt i = false) : t.liveAt i = false := by
  rw [Bool.eq_false_iff]
  intro live
  unfold State.liveAt at live dead
  cases lease : t.lease i with
  | none => simp [lease] at live
  | some l' =>
    obtain ⟨l, hl, _, lived, _⟩ := h.leases i l' lease
    rw [lease] at live
    rw [Option.mem_def.1 hl] at dead
    exact absurd (lived live) (by simp [show l.live = false from dead])

theorem liveAt_endLease_self (i : SlotId) (cause : EndCause) (s : State) : (endLease i cause s).liveAt i = false := by
  cases live : s.liveAt i with
  | false => rw [endLease_not_live cause live, live]
  | true =>
    cases h : s.lease i with
    | none => simp [State.liveAt, h] at live
    | some l =>
      rw [endLease_eq_withEnded cause h (by simpa [State.liveAt, h] using live)]
      have lease : (withEnded [i] (fun _ => cause) s).lease i = some { l with state := .ended cause } := by
        rw [State.lease, slot_withEnded, if_pos (by simp [live]), h]
        rfl
      simp [State.liveAt, lease, Lease.live]

theorem liveAt_endAll {is : List SlotId} {i : SlotId} (mem : i ∈ is) (cause : EndCause) (s : State) :
    (endAll is cause s).liveAt i = false := by
  induction is generalizing s with
  | nil => cases mem
  | cons j is ih =>
    rcases List.mem_cons.1 mem with rfl | mem
    · exact (leasesFrom_endAll is cause (endLease i cause s)).dead (liveAt_endLease_self i cause s)
    · exact ih mem (endLease j cause s)

theorem liveAt_of_liveOn {s : State} {d : Managed} {i : SlotId} (on : s.liveOn d i = true) : s.liveAt i = true := by
  by_contra dead
  have off := (not_live_reads (Bool.eq_false_iff.2 dead)).1 d
  rw [on] at off
  cases off

/-- R38: the ending of every lease of a domain's list leaves the list empty. -/
theorem list_endAll_self {s : State} (lists : listLaw s) (d : Managed) (cause : EndCause) :
    (endAll (s.list d) cause s).list d = [] := by
  have ended := leasesFrom_endAll (s.list d) cause s
  refine List.eq_nil_iff_forall_not_mem.2 fun i mem => ?_
  have live := liveAt_of_liveOn (((ended.law lists d).2 i).1 mem)
  rw [liveAt_endAll ((ended.lists d).subset mem)] at live
  cases live

theorem LeasesFrom.list_nil {s t : State} (h : LeasesFrom s t) {d : Managed} (nil : s.list d = []) : t.list d = [] := by
  have sub := h.lists d
  rw [nil] at sub
  exact List.sublist_nil.1 sub

/-- R38: so it is of several domains' lists, one after another. -/
theorem list_endLists {l : List Managed} (cause : EndCause) {s : State} (lists : listLaw s) {e : Managed} (mem : e ∈ l) :
    (l.foldl (fun t e => endAll (t.list e) cause t) s).list e = [] := by
  induction l generalizing s with
  | nil => cases mem
  | cons f l ih =>
    have first : LeasesFrom s (endAll (s.list f) cause s) := leasesFrom_endAll _ cause s
    rcases List.mem_cons.1 mem with rfl | mem
    · have later := LeasesFrom.foldl (fun t e => endAll (t.list e) cause t)
        (fun t e => leasesFrom_endAll (t.list e) cause t) l (endAll (s.list e) cause s)
      exact later.list_nil (list_endAll_self lists e cause)
    · exact ih (first.law lists) mem

/-- R38, R91: the failing subtree has no live lease left. -/
theorem list_faultEvent {s : State} (lists : listLaw s) {d j : Managed} (cause : FaultCause)
    (inside : j = d ∨ d ∈ s.ancestors j) : (faultEvent d cause s).list j = [] := by
  have cutLists : listLaw (cutState d cause s) := by
    obtain ⟨_, _, _, _, h⟩ := engineSide_cutState d cause s
    rw [h]
    exact lists
  have first : LeasesFrom (cutState d cause s) (endAll ((cutState d cause s).list d) .fault (cutState d cause s)) :=
    leasesFrom_endAll _ _ _
  refine (leasesFrom_post _ _ _).list_nil ?_
  rcases inside with rfl | below
  · exact (LeasesFrom.foldl _ (fun t e => leasesFrom_endAll _ _ t) _ _).list_nil (list_endAll_self cutLists j .fault)
  · exact list_endLists _ (first.law cutLists) ((mem_descendants s d j).2 below)

end Sys2Proof.Machine
end

section
/-! Every change keeps the floors and the faults, and so does every step (R7, R12, R49, R91). -/

namespace Sys2Proof.Machine

/-! ### Changes that leave engines and records -/

theorem assured_congr {s t : State} (engines : ∀ d, (t.engine d).state = (s.engine d).state) : t.assured = s.assured := by
  funext p
  unfold State.assured
  split
  · rw [engines]
  · rfl

theorem definedLaw_congr {s t : State} (records : t.record = s.record)
    (engines : ∀ d, (t.engine d).state = (s.engine d).state) (hs : definedLaw s) : definedLaw t := by
  intro d undefined
  rw [records] at undefined
  rw [engines]
  exact hs d undefined

theorem floorLaw_congr {s t : State} (records : t.record = s.record)
    (engines : ∀ d, (t.engine d).state = (s.engine d).state) (hs : floorLaw s) : floorLaw t := by
  intro d relies r record
  rw [engines] at relies
  rw [records] at record
  rw [assured_congr engines]
  exact hs d relies r record

theorem faultAtOrAbove_congr {s t : State} (records : t.record = s.record)
    (engines : ∀ d, (t.engine d).state = (s.engine d).state) (d : Managed) : t.faultAtOrAbove d = s.faultAtOrAbove d := by
  rw [Bool.eq_iff_iff]
  exact ⟨faultAtOrAbove_mono records fun a fault => engines a ▸ fault,
    faultAtOrAbove_mono records.symm fun a fault => (engines a).symm ▸ fault⟩

/-- Where engines and records stay, the lists of faulted subtrees need only stay empty. -/
theorem faultLaw_congr {s t : State} (records : t.record = s.record)
    (engines : ∀ d, (t.engine d).state = (s.engine d).state)
    (lists : ∀ d, s.faultAtOrAbove d = true → s.list d = [] → t.list d = []) (hs : faultLaw s) : faultLaw t := by
  intro d faulted
  rw [faultAtOrAbove_congr records engines] at faulted
  obtain ⟨nil, fallen⟩ := hs d faulted
  exact ⟨lists d faulted nil, by rw [engines]; exact fallen⟩

/-! ### SETUP -/

/-- R167: while every domain is down and no lease stands, no tree has a floor to meet or a lease under a fault. -/
theorem laws_of_down {s : State} (down : s.allDown = true) (lists : ∀ d, s.list d = []) : faultLaw s ∧ floorLaw s := by
  rw [allDown_iff] at down
  refine ⟨fun d _ => ⟨lists d, fallen_of_down (down d)⟩, fun d relies => ?_⟩
  have up := not_down_of_relies relies
  rw [down d] at up
  cases up

theorem list_of_setup {s : State} (laws : arbiterLaw s) (setup : s.partState = .setup) (d : Managed) : s.list d = [] := by
  obtain ⟨lists, empty, _, _⟩ := laws
  exact list_eq_nil_of_free lists (empty (by rw [setup]; decide)) d

/-- R172: whatever record DEFINE_DOMAIN writes, it writes it in SETUP. -/
theorem laws_of_setRecord {s : State} (laws : arbiterLaw s) (setup : s.partState = .setup) (d : Managed)
    (r : Option DomainRecord) : faultLaw (s.setRecord d r) ∧ floorLaw (s.setRecord d r) := by
  have ⟨_, _, quiet, _⟩ := laws
  have down : (s.setRecord d r).allDown = true := (allDown_congr fun e => by rw [engine_setRecord]).trans (quiet setup)
  exact laws_of_down down fun e => by rw [list_setRecord]; exact list_of_setup laws setup e

/-! ### The fault event -/

theorem engine_faultEvent (d : Managed) (cause : FaultCause) (s : State) :
    (faultEvent d cause s).engine = (cutState d cause s).engine :=
  (leases_after_cut d cause s).side.engine

theorem record_faultEvent (d : Managed) (cause : FaultCause) (s : State) : (faultEvent d cause s).record = s.record :=
  (leases_after_cut d cause s).side.record.trans (engineSide_cutState d cause s).record

theorem lists_faultEvent (d : Managed) (cause : FaultCause) (s : State) {e : Managed} (nil : s.list e = []) :
    (faultEvent d cause s).list e = [] := by
  obtain ⟨_, ⟨_, _, _, _, rfl⟩, leases⟩ := faultEvent_sides d cause s
  exact leases.list_nil nil

theorem definedLaw_faultEvent {s : State} (ranges : recordLaw s) {d : Managed} (cause : FaultCause)
    (fails : (s.engine d).state.canFail = true) (hs : definedLaw s) : definedLaw (faultEvent d cause s) := by
  intro e undefined
  rw [record_faultEvent] at undefined
  have off := hs e undefined
  have other : e ≠ d := fun eq => by rw [← eq, off] at fails; cases fails
  rw [engine_faultEvent]
  exact off_cutState ranges cause other off

/-- R84, R91: under every fault, old or new, the domains have fallen and have no live lease. -/
theorem faultLaw_faultEvent {s : State} (ranges : recordLaw s) (lists : listLaw s) (d : Managed) (cause : FaultCause)
    (hs : faultLaw s) : faultLaw (faultEvent d cause s) := by
  intro e faulted
  rw [engine_faultEvent]
  by_cases inside : e = d ∨ d ∈ s.ancestors e
  · exact ⟨list_faultEvent lists cause inside, fallen_cutState ranges cause inside⟩
  · have before : s.faultAtOrAbove e = true := by
      rw [faultAtOrAbove_iff, ancestors_congr (record_faultEvent d cause s), engine_faultEvent] at faulted
      obtain ⟨a, above, fault⟩ := faulted
      rcases fault_cutState ranges fault with rfl | old
      · exact absurd (above.imp Eq.symm id) inside
      · exact (faultAtOrAbove_iff s e).2 ⟨a, above, old⟩
    push Not at inside
    obtain ⟨nil, fallen⟩ := hs e before
    exact ⟨lists_faultEvent d cause s nil, by rwa [engine_cutState_outside ranges cause inside.1 inside.2]⟩

/-- R12: a domain that relies on its parent stands outside the failing subtree, and so does its parent. -/
theorem floorLaw_faultEvent {s : State} (ranges : recordLaw s) (defined : definedLaw s) (d : Managed) (cause : FaultCause)
    (hs : floorLaw s) : floorLaw (faultEvent d cause s) := by
  intro e relies r record
  rw [record_faultEvent] at record
  rw [engine_faultEvent] at relies
  have outside : ¬ (e = d ∨ d ∈ s.ancestors e) := fun inside => by
    have standing := not_fallen_of_relies relies
    rw [fallen_cutState ranges cause inside] at standing
    cases standing
  push Not at outside
  rw [engine_cutState_outside ranges cause outside.1 outside.2] at relies
  have met := hs e relies r record
  have same : (faultEvent d cause s).assured r.parent = s.assured r.parent := by
    unfold State.assured at met ⊢
    cases managed : asManaged r.parent with
    | none => rfl
    | some m =>
      simp only [managed] at met
      have parent := asManaged_eq_some.1 managed
      have known : s.record m ≠ none := fun undefined => by
        have up := ne_off_iff.1 (ranges e r record).2.1
        rw [defined m undefined] at met
        exact absurd (up.trans met) (by decide)
      have walk := ancestors_of_place (place_of_record ranges record parent known)
      have apart : m ≠ d ∧ d ∉ s.ancestors m := by
        rw [walk, List.mem_cons, not_or] at outside
        exact ⟨Ne.symm outside.2.1, outside.2.2⟩
      dsimp only
      rw [engine_faultEvent, engine_cutState_outside ranges cause apart.1 apart.2]
  rw [same]
  exact met

/-! ### Every change -/

theorem state_lowerTimers (s : State) (d : Managed) : ((lowerTimers s).engine d).state = (s.engine d).state := by
  rw [engine_lowerTimers]

theorem list_lowerTimers (s : State) : (lowerTimers s).list = s.list := by
  funext d
  simp only [lowerTimers, State.list]

theorem list_resetPart (s : State) (d : Managed) : (resetPart s).list d = [] := by
  simp [resetPart, logPins, State.list, State.reset]

theorem down_resetPart (s : State) : (resetPart s).allDown = true :=
  (allDown_iff _).2 fun d => by rw [engine_resetPart]; rfl

theorem definedLaw_change {s t : State} (h : Change s t) (laws : subtreeLaw s) : definedLaw t := by
  obtain ⟨ranges, _, _, defined, quiet, ⟨_, queue⟩, _, _⟩ := laws
  cases h with
  | outside h _ => obtain ⟨_, _, _, _, _, _, _, _, _, rfl⟩ := h; exact defined
  | @record d r setup sound _ =>
    intro e undefined
    rw [record_setRecord] at undefined
    split at undefined
    · subst e
      exact (state_of_down ((allDown_iff s).1 (quiet setup) d)).resolve_right sound
    · exact defined e undefined
  | leases h => exact definedLaw_congr h.side.record (fun d => by rw [h.side.engine]) defined
  | @make i l =>
    have side := leaseSide_placeLease i l s
    exact definedLaw_congr side.record (fun d => by rw [side.engine]) defined
  | move h => exact definedLaw_move h queue defined
  | @fault d cause fails => exact definedLaw_faultEvent ranges cause fails defined
  | timers => exact definedLaw_congr (record_lowerTimers s) (state_lowerTimers s) defined
  | reset => exact fun d _ => by rw [engine_resetPart]; rfl
  | _ => exact defined

theorem faultLaw_change {s t : State} (h : Change s t) (laws : subtreeLaw s) : faultLaw t := by
  obtain ⟨ranges, lists, empty, _, quiet, ramp, faults, _⟩ := laws
  cases h with
  | outside h _ => obtain ⟨_, _, _, _, _, _, _, _, _, rfl⟩ := h; exact faults
  | @record d r setup => exact (laws_of_setRecord ⟨lists, empty, quiet, ramp⟩ setup d r).1
  | leases h => exact faultLaw_congr h.side.record (fun d => by rw [h.side.engine]) (fun d _ => h.list_nil) faults
  | @make i l _ _ _ sound =>
    have side := leaseSide_placeLease i l s
    refine faultLaw_congr side.record (fun d => by rw [side.engine]) (fun d faulted nil => ?_) faults
    rw [list_placeLease, if_neg]
    · exact nil
    · rintro rfl
      rw [sound] at faulted
      cases faulted
  | move h => exact faultLaw_move h ramp.2 faults
  | @fault d cause fails => exact faultLaw_faultEvent ranges lists d cause faults
  | timers =>
    exact faultLaw_congr (record_lowerTimers s) (state_lowerTimers s) (fun d _ nil => by rwa [list_lowerTimers]) faults
  | reset => exact (laws_of_down (down_resetPart s) (list_resetPart s)).1
  | _ => exact faults

theorem floorLaw_change {s t : State} (h : Change s t) (laws : subtreeLaw s) : floorLaw t := by
  have ⟨ranges, lists, empty, defined, quiet, ramp, _, floors⟩ := laws
  cases h with
  | outside h _ => obtain ⟨_, _, _, _, _, _, _, _, _, rfl⟩ := h; exact floors
  | @record d r setup => exact (laws_of_setRecord ⟨lists, empty, quiet, ramp⟩ setup d r).2
  | leases h => exact floorLaw_congr h.side.record (fun d => by rw [h.side.engine]) floors
  | @make i l =>
    have side := leaseSide_placeLease i l s
    exact floorLaw_congr side.record (fun d => by rw [side.engine]) floors
  | move h => exact floorLaw_move h laws
  | @fault d cause _ => exact floorLaw_faultEvent ranges defined d cause floors
  | timers => exact floorLaw_congr (record_lowerTimers s) (state_lowerTimers s) floors
  | reset => exact (laws_of_down (down_resetPart s) (list_resetPart s)).2
  | _ => exact floors

theorem subtreeLaw_change {s t : State} (h : Change s t) (laws : subtreeLaw s) : subtreeLaw t := by
  have ⟨ranges, lists, empty, _, quiet, ramp, _, _⟩ := laws
  obtain ⟨lists, empty, quiet, ramp⟩ := arbiterLaw_change h ⟨lists, empty, quiet, ramp⟩
  exact ⟨recordLaw_change h ranges, lists, empty, definedLaw_change h laws, quiet, ramp, faultLaw_change h laws,
    floorLaw_change h laws⟩

theorem subtreeLaw_outside {s t : State} (h : outside s t) (laws : subtreeLaw s) : subtreeLaw t := by
  obtain ⟨_, _, _, _, _, _, _, _, _, rfl⟩ := h
  exact laws

/-- Settles O56: the laws of the statement are kept by every change, so by every step. -/
theorem floorsAndFaultsAreKept : Obligations.FloorsAndFaultsAreKept :=
  fun _ _ laws h => step_keeps subtreeLaw_outside subtreeLaw_change h laws

end Sys2Proof.Machine
end

section
/-! The ramp arbiter's laws, with those of the lists, the slots and SETUP that they rest on, survive every step
(R73, R74, R167). -/

namespace Sys2Proof.Machine

theorem arbiterLaw_outside {s t : State} (h : outside s t) (hs : arbiterLaw s) : arbiterLaw t := by
  obtain ⟨_, _, _, _, _, _, _, _, _, rfl⟩ := h
  exact hs

/-- Settles O53: the four laws are kept by every change (`arbiterLaw_change`) and blind to what a step does beside its
changes. -/
theorem rampLawsAreKept : Obligations.RampLawsAreKept :=
  fun _ _ laws h => step_keeps arbiterLaw_outside arbiterLaw_change h laws

end Sys2Proof.Machine
end

section
/-! Where an arrival takes a domain in its event: the chain of R51 to R53 in closed form, the children it releases, and
the targets, which it leaves as they were (R13, R14, R52). -/

namespace Sys2Proof.Machine

/-! ### Targets that an event leaves -/

/-- R13: the states in which a domain holds its parent, whatever its drain-complete flag. -/
def EngineState.stands (e : EngineState) : Prop := e ≠ .off ∧ e ≠ .fault

theorem down_of_stands {e : Engine} (h : e.state.stands) : e.down = false := by
  rw [Bool.eq_false_iff]
  exact fun down => (state_of_down down).elim h.1 h.2

/-- From s to t every engine stays as it is, or stands before and after. -/
def standsOn (s t : State) : Prop :=
  ∀ e, t.engine e = s.engine e ∨ (s.engine e).state.stands ∧ (t.engine e).state.stands

theorem standsOn.down {s t : State} (h : standsOn s t) (e : Managed) : (t.engine e).down = (s.engine e).down := by
  rcases h e with same | ⟨before, after⟩
  · rw [same]
  · rw [down_of_stands before, down_of_stands after]

theorem standsOn.fault {s t : State} (h : standsOn s t) (e : Managed) :
    (t.engine e).state = .fault ↔ (s.engine e).state = .fault := by
  rcases h e with same | ⟨before, after⟩
  · rw [same]
  · exact iff_of_false after.2 before.2

theorem engineSide.moveSide {s t : State} (h : engineSide s t) : moveSide s t := by
  obtain ⟨_, _, _, _, rfl⟩ := h
  exact ⟨_, _, _, _, _, rfl⟩

theorem moveSide.record {s t : State} (h : moveSide s t) : t.record = s.record := by
  obtain ⟨_, _, _, _, _, rfl⟩ := h
  rfl

theorem children_congr {s t : State} (records : t.record = s.record) : t.children = s.children := by
  funext p
  unfold State.children
  rw [place_congr records]

/-- R13, R14: the targets follow from records, leases, and which engines stand. -/
theorem target_of_standsOn {s t : State} (side : moveSide s t) (h : standsOn s t) : t.target = s.target := by
  have records := side.record
  have faulted : ∀ d, t.faultAtOrAbove d = s.faultAtOrAbove d := fun d => Bool.eq_iff_iff.2
    ⟨faultAtOrAbove_mono records fun a => (h.fault a).1, faultAtOrAbove_mono records.symm fun a => (h.fault a).2⟩
  have leases : t.list = s.list ∧ t.lease = s.lease := by obtain ⟨_, _, _, _, _, rfl⟩ := side; exact ⟨rfl, rfl⟩
  funext d
  induction d using leavesUp with
  | each d ih =>
    have holds : ∀ c ∈ s.children (managedDomain d),
        (t.target c.1 != .off || !(t.engine c.1).down) = (s.target c.1 != .off || !(s.engine c.1).down) := by
      intro c child
      rw [ih c.1 (lt_of_mem_children child), h.down]
    rw [target_eq, target_eq, faulted, children_congr records, leases.1, leases.2, List.filter_congr holds]

/-! ### The children that an arrival releases -/

/-- R52, R55: of some children with their floors, those that wait for a parent whose level meets their floor. -/
def State.metAmong (s : State) (level : Level) (l : List (Managed × Level)) : List Managed :=
  (l.filter fun c => (s.engine c.1).state == .waitParent && c.2.num ≤ level.num).map Prod.fst

theorem waitingChildren_eq (s : State) (d : Managed) (level : Level) :
    s.waitingChildren d level = s.metAmong level (s.children (managedDomain d)) := rfl

theorem metAmong_congr {s t : State} {l : List (Managed × Level)} (engines : ∀ c ∈ l, t.engine c.1 = s.engine c.1)
    (level : Level) : t.metAmong level l = s.metAmong level l := by
  unfold State.metAmong
  rw [List.filter_congr fun c hc => by rw [engines c hc]]

theorem mem_of_mem_metAmong {s : State} {level : Level} {l : List (Managed × Level)} {e : Managed}
    (h : e ∈ s.metAmong level l) : e ∈ l.map Prod.fst ∧ (s.engine e).state = .waitParent := by
  obtain ⟨c, mem, rfl⟩ := List.mem_map.1 h
  obtain ⟨mem, waits⟩ := List.mem_filter.1 mem
  rw [Bool.and_eq_true, beq_iff_eq] at waits
  exact ⟨List.mem_map_of_mem mem, waits.1⟩

/-- R52: the releases of an arrival, child after child: who joins the ramp queue, and which engines change. -/
theorem releaseChildren_eq {d : Managed} {l : List (Managed × Level)} (nodup : (l.map Prod.fst).Nodup)
    (apart : d ∉ l.map Prod.fst) (s : State) :
    (l.foldl (releaseChild d) s).rampQueue = s.rampQueue ++ s.metAmong (s.assuredOf d) l ∧
    ∀ e, (l.foldl (releaseChild d) s).engine e = if e ∈ s.metAmong (s.assuredOf d) l then
      { s.engine e with state := .waitBudget, timer := none } else s.engine e := by
  induction l generalizing s with
  | nil => simp [State.metAmong]
  | cons c l ih =>
    simp only [List.map_cons, List.nodup_cons, List.mem_cons, not_or] at nodup apart
    obtain ⟨absent, nodup⟩ := nodup
    obtain ⟨other, apart⟩ := apart
    rw [List.foldl_cons]
    by_cases met : (s.engine c.1).state = .waitParent ∧ c.2.num ≤ (s.assuredOf d).num
    · have first : releaseChild d s c = enterQueue c.1 s := if_pos met
      have assured : (enterQueue c.1 s).assuredOf d = s.assuredOf d := by
        unfold State.assuredOf; rw [engine_enterQueue_ne s other]
      have later : (enterQueue c.1 s).metAmong (s.assuredOf d) l = s.metAmong (s.assuredOf d) l :=
        metAmong_congr (fun e he => engine_enterQueue_ne s fun eq => absent (List.mem_map.2 ⟨e, he, eq⟩)) _
      have all : s.metAmong (s.assuredOf d) (c :: l) = c.1 :: s.metAmong (s.assuredOf d) l := by
        simp [State.metAmong, met]
      obtain ⟨queue, engines⟩ := ih nodup apart (enterQueue c.1 s)
      rw [assured, later] at queue engines
      rw [first, all]
      refine ⟨queue.trans (List.append_assoc _ [c.1] _), fun e => ?_⟩
      rw [engines]
      by_cases same : e = c.1
      · subst e
        rw [if_neg fun mem => absent (mem_of_mem_metAmong mem).1, if_pos List.mem_cons_self, engine_enterQueue_self]
      · simp only [List.mem_cons, same, false_or, engine_enterQueue_ne s same]
    · have first : releaseChild d s c = s := if_neg met
      have all : s.metAmong (s.assuredOf d) (c :: l) = s.metAmong (s.assuredOf d) l := by
        unfold State.metAmong
        rw [List.filter_cons_of_neg]
        simpa using met
      rw [first, all]
      exact ih nodup apart s

/-- Values made each from one place of a list, and naming that place, name no place twice. -/
theorem nodup_map_fst_filterMap {f : Managed → Option (Managed × Level)} (own : ∀ e, ∀ c ∈ f e, c.1 = e)
    {l : List Managed} (nodup : l.Nodup) : ((l.filterMap f).map Prod.fst).Nodup := by
  rw [List.Nodup, List.pairwise_map]
  refine List.Pairwise.filterMap f (fun a b apart c hc c' hc' => ?_) nodup
  rw [own a c hc, own b c' hc']
  exact apart

theorem children_nodup (s : State) (p : Domain) : ((s.children p).map Prod.fst).Nodup := by
  refine nodup_map_fst_filterMap (fun e c hc => ?_) (by decide)
  split at hc
  · split at hc
    · cases hc; rfl
    · cases hc
  · cases hc

theorem not_mem_own_children (s : State) (d : Managed) : d ∉ (s.children (managedDomain d)).map Prod.fst := by
  intro mem
  obtain ⟨c, child, eq⟩ := List.mem_map.1 mem
  exact absurd (lt_of_mem_children child) (by rw [eq]; exact lt_irrefl d)

/-- R52: a child released once does not wait any more when a later arrival comes. -/
theorem releases_after {s t : State} {d : Managed} {gone : List Managed} (records : t.record = s.record)
    (engines : ∀ e, e ≠ d → t.engine e =
      if e ∈ gone then { s.engine e with state := .waitBudget, timer := none } else s.engine e) (levels : List Level) :
    t.releases d levels = (s.releases d levels).filter fun e => !gone.contains e := by
  have waiting : ∀ level, t.waitingChildren d level = (s.waitingChildren d level).filter fun e => !gone.contains e := by
    intro level
    simp only [waitingChildren_eq, State.metAmong, children_congr records, List.filter_map, List.filter_filter]
    refine congrArg (List.map Prod.fst) (List.filter_congr fun c child => ?_)
    have other : c.1 ≠ d := fun eq => not_mem_own_children s d (List.mem_map.2 ⟨c, child, eq⟩)
    rw [engines c.1 other]
    by_cases mem : c.1 ∈ gone <;> simp [mem]
  induction levels with
  | nil => rfl
  | cons level later ih =>
    simp only [State.releases, waiting, ih, List.filter_append, List.filter_filter]
    congr 1
    refine List.filter_congr fun e _ => ?_
    by_cases mem : e ∈ gone <;> simp [mem]

theorem waits_of_mem_releases {s : State} {d e : Managed} {levels : List Level} (h : e ∈ s.releases d levels) :
    (s.engine e).state = .waitParent := by
  induction levels with
  | nil => cases h
  | cons level later ih =>
    rcases List.mem_append.1 h with now | later
    · exact (mem_of_mem_metAmong now).2
    · exact ih (List.mem_filter.1 later).1

/-! ### Where a domain comes to -/

/-- R52: from s to t domain d has come to the end of a chain, its arrivals have released the children that waited for
them, and its last arrival is the report that waits. No weight is taken or returned. -/
structure ComesTo (s t : State) (d : Managed) (c : ChainEnd) : Prop where
  side : engineSide s t
  units : t.freeUnits = s.freeUnits
  engine : engineAt t d (s.engine d) c
  children : released s t d (s.releases d c.arrived)
  reports : ∀ e, t.report e = if e = d then c.arrived.getLast?.or (s.report e) else s.report e

theorem ComesTo.arrivesAndGoesOn {s t : State} {d : Managed} {r : DomainRecord} {level : Level}
    (h : ComesTo s t d ((chainFrom r (s.target d) (s.ckokSeen d) level).after level)) :
    arrivesAndGoesOn s t d r level := by
  refine ⟨h.engine, h.children, fun e => ?_⟩
  rw [h.reports]
  simp [ChainEnd.after, List.getLast?_cons]

/-- A chain in which the domain does not move and its state is what it was. -/
theorem comesTo_stays {s : State} {d : Managed} {st : EngineState} (at_ : (s.engine d).state = st)
    (still : (s.engine d).timer = none) : ComesTo s s d ⟨st, none, []⟩ := by
  refine ⟨.refl s, rfl, ?_, ⟨(List.append_nil _).symm, fun _ _ => by simp [State.releases]⟩, fun e => by simp⟩
  subst st
  unfold engineAt
  rw [← still]

theorem comesTo_moveEngine (s : State) (d : Managed) (st : EngineState) (n : Option Nat) :
    ComesTo s (s.moveEngine d st n) d ⟨st, n, []⟩ := by
  refine ⟨engineSide_moveEngine d st n s, rfl, engine_moveEngine_self s d st n,
    ⟨(List.append_nil _).symm, fun e other => ?_⟩, fun e => ?_⟩
  · rw [engine_moveEngine_ne s other]; simp [State.releases]
  · simp [State.moveEngine]

/-- What the chain does is told from any state that differs from its first one at the domain's state and timer alone. -/
theorem ComesTo.rebase {s u t : State} {d : Managed} {c : ChainEnd} (h : ComesTo u t d c) (side : engineSide s u)
    (turns : Turns d s u) (own : ∃ st n, u.engine d = { s.engine d with state := st, timer := n })
    (queue : u.rampQueue = s.rampQueue) (reports : u.report = s.report) (units : u.freeUnits = s.freeUnits) :
    ComesTo s t d c := by
  have releases : u.releases d c.arrived = s.releases d c.arrived := by
    rw [releases_after (gone := []) turns.records fun e other => by simp [turns.others e other]]
    simp
  obtain ⟨side', units', engine, ⟨queued, others⟩, told⟩ := h
  rw [releases] at queued others
  rw [reports] at told
  obtain ⟨st, n, own⟩ := own
  refine ⟨side.trans side', units'.trans units, ?_, ⟨by rw [queued, queue], fun e other => ?_⟩, told⟩
  · unfold engineAt at engine ⊢
    rw [engine, own]
  · rw [others e other, turns.others e other]

/-- Releases hand no report, and take and return no weight. -/
theorem reads_releaseChildren (d : Managed) (l : List (Managed × Level)) (s : State) :
    (l.foldl (releaseChild d) s).report = s.report ∧ (l.foldl (releaseChild d) s).freeUnits = s.freeUnits := by
  refine foldl_relation (fun s t => t.report = s.report ∧ t.freeUnits = s.freeUnits) (fun _ => ⟨rfl, rfl⟩)
    (fun _ _ _ h k => ⟨k.1.trans h.1, k.2.trans h.2⟩) _ (fun s c => ?_) l s
  unfold releaseChild
  split <;> exact ⟨rfl, rfl⟩

/-- R52: an arrival's first two actions. -/
theorem comesTo_enterLevel (s : State) (d : Managed) (level : Level) :
    ComesTo s (enterLevel d level s) d ⟨level.engineState, none, [level]⟩ := by
  have children : (arrived d level s).children (managedDomain d) = s.children (managedDomain d) := by
    rw [children_congr (turns_arrived d level s).records]
  have met : (arrived d level s).metAmong ((arrived d level s).assuredOf d) (s.children (managedDomain d)) =
      s.releases d [level] := by
    rw [State.assuredOf, assured_arrived, State.releases, State.releases, List.filter_nil, List.append_nil,
      waitingChildren_eq]
    refine metAmong_congr (fun c child => engine_arrived_ne s (fun eq => ?_) level) level
    exact not_mem_own_children s d (List.mem_map.2 ⟨c, child, eq⟩)
  have all := releaseChildren_eq (children_nodup s (managedDomain d)) (not_mem_own_children s d) (arrived d level s)
  rw [met] at all
  obtain ⟨queue, engines⟩ := all
  have entered : enterLevel d level s = (s.children (managedDomain d)).foldl (releaseChild d) (arrived d level s) := by
    rw [← children]; rfl
  have ⟨reports, units⟩ := reads_releaseChildren d (s.children (managedDomain d)) (arrived d level s)
  refine ⟨engineSide_enterLevel d level s, by rw [entered, units]; rfl, ?_, ⟨?_, fun e other => ?_⟩, fun e => ?_⟩
  · exact (engine_enterLevel_self d level s).trans (engine_arrived_self s d level)
  · rw [entered, queue]; rfl
  · rw [entered, engines, engine_arrived_ne s other]
  · rw [entered, reports]
    simp [arrived, report_setReport, State.moveEngine]

/-- R52: an arrival, and on from there. -/
theorem ComesTo.goOn {s t u : State} {d : Managed} {level : Level} {c : ChainEnd}
    (first : ComesTo s t d ⟨level.engineState, none, [level]⟩) (later : ComesTo t u d c) :
    ComesTo s u d (c.after level) := by
  obtain ⟨side, units, here, ⟨queue, others⟩, told⟩ := first
  obtain ⟨side', units', engine, ⟨queue', others'⟩, told'⟩ := later
  have releases := releases_after (levels := c.arrived) side.record others
  have all : s.releases d (c.after level).arrived = s.releases d [level] ++ t.releases d c.arrived := by
    rw [releases]
    simp [ChainEnd.after, State.releases]
  refine ⟨side.trans side', units'.trans units, ?_,
    ⟨by rw [queue', queue, all, List.append_assoc], fun e other => ?_⟩, fun e => ?_⟩
  · unfold engineAt at here engine ⊢
    rw [engine, here]
    rfl
  · rw [others' e other, others e other, all]
    by_cases now : e ∈ s.releases d [level] <;> simp [now]
  · rw [told', told]
    by_cases same : e = d <;> simp [same, ChainEnd.after, List.getLast?_cons]

theorem ComesTo.standsOn {s t : State} {d : Managed} {c : ChainEnd} (h : ComesTo s t d c)
    (before : (s.engine d).state.stands) (after : c.state.stands) : standsOn s t := by
  intro e
  by_cases same : e = d
  · subst e
    have here : t.engine d = _ := h.engine
    exact .inr ⟨before, by rw [here]; exact after⟩
  · rw [h.children.2 e same]
    split
    · rename_i mem
      exact .inr ⟨by rw [waits_of_mem_releases mem]; exact ⟨nofun, nofun⟩, nofun, nofun⟩
    · exact .inl rfl

/-! ### The chain of R53 -/

theorem engineSide.ckokSeen {s t : State} (h : engineSide s t) : t.ckokSeen = s.ckokSeen := by
  obtain ⟨_, _, _, _, rfl⟩ := h
  rfl

theorem State.fits.next {s t : State} {d : Managed} {r : DomainRecord} {level next : Level} (fits : s.fits d r level)
    (records : t.record = s.record) (target : t.target d = s.target d) (within : next.num ≤ r.maxLevel.num) :
    t.fits d r next := by
  obtain ⟨record, ranges, _, bound⟩ := fits
  exact ⟨by rw [records]; exact record, ranges, within, by rw [target]; exact bound⟩

theorem engineState_stands {level : Level} (up : level ≠ .off) : level.engineState.stands := by
  cases level with
  | off => exact absurd rfl up
  | _ => exact ⟨nofun, nofun⟩

theorem clockTimeout_of_above {d : Managed} {r : DomainRecord} (ranges : r.inRange d)
    (above : Level.retain.num < r.maxLevel.num) : ∃ n, r.clockTimeout = some n := by
  obtain ⟨_, _, _, _, _, _, _, _, clock, _⟩ := ranges
  exact Option.isSome_iff_exists.1 (clock.2 above)

theorem boostSettle_of_boost {d : Managed} {r : DomainRecord} (ranges : r.inRange d)
    (top : Level.boost.num ≤ r.maxLevel.num) : ∃ n, r.boostSettle = some n := by
  obtain ⟨_, _, _, _, _, _, _, _, _, _, boost, _⟩ := ranges
  have max : r.maxLevel = .boost := by revert top; cases r.maxLevel <;> decide
  exact Option.isSome_iff_exists.1 (boost.2 max)

theorem chainFromRetain_above {target : Level} (above : Level.retain.num < target.num) (r : DomainRecord)
    (ckok : Bool) : chainFromRetain r target ckok =
      if ckok = true then (chainFromRun r target).after .run else ⟨.clockUp, r.clockTimeout, []⟩ := by
  cases target with
  | off => exact absurd above (by decide)
  | retain => exact absurd above (by decide)
  | _ => rfl

/-- The levels between two levels, the last included: the most arrivals on the way. -/
def Level.apart (a b : Level) : Nat := (a.num - b.num) + (b.num - a.num)

theorem num_injective {a b : Level} (h : a.num = b.num) : a = b := by
  revert h
  cases a <;> cases b <;> decide

theorem eq_of_apart_zero {a b : Level} (h : a.apart b ≤ 0) : b = a :=
  num_injective (by unfold Level.apart at h; omega)

theorem apart_next {a b next : Level} {n : Nat} (h : a.apart b ≤ n + 1)
    (toward : a.num < next.num ∧ next.num ≤ b.num ∨ b.num ≤ next.num ∧ next.num < a.num) : next.apart b ≤ n := by
  unfold Level.apart at *
  omega

theorem chainFromRun_below {target : Level} (below : target.num < Level.run.num) (r : DomainRecord) (ckok : Bool) :
    chainFromRun r target = (chainFromRetain r target ckok).after .retain := by
  cases target with
  | run => exact absurd below (by decide)
  | boost => exact absurd below (by decide)
  | _ => rfl

theorem chainFromBoost_below {target : Level} (below : target.num < Level.boost.num) (r : DomainRecord) :
    chainFromBoost r target =
      if r.boostSettle = some 0 then (chainFromRun r target).after .run else ⟨.boostDown, r.boostSettle, []⟩ := by
  cases target with
  | boost => exact absurd below (by decide)
  | _ => rfl

/-- What an operation does at an arrival of d that is at most n levels from its target. -/
def comesWithin (arrive : Level → State → State) (d : Managed) (r : DomainRecord) (n : Nat) : Prop :=
  ∀ level u, level ≠ .off → u.fits d r level → (u.engine d).state.stands → level.apart (u.target d) ≤ n →
    ComesTo u (arrive level u) d ((chainFrom r (u.target d) (u.ckokSeen d) level).after level)

section
variable {arrive : Level → State → State} {d : Managed} {r : DomainRecord} {n : Nat} {s : State}

/-- R53, R59, R63: on from RETAIN. -/
theorem comesTo_beginStep_retain (each : comesWithin arrive d r n) (fits : s.fits d r .retain)
    (at_ : (s.engine d).state = .retain) (still : s.target d = .retain → (s.engine d).timer = none)
    (near : Level.retain.apart (s.target d) ≤ n + 1) :
    ComesTo s (beginStep arrive d .retain s) d (chainFromRetain r (s.target d) (s.ckokSeen d)) := by
  have ⟨record, ranges, _, bound⟩ := fits
  simp only [beginStep, record]
  by_cases above : Level.retain.num < (s.target d).num
  · have within : Level.run.num ≤ r.maxLevel.num := above.trans_le bound
    obtain ⟨time, clock⟩ := clockTimeout_of_above ranges within
    rw [if_pos above, chainFromRetain_above above, clock]
    dsimp only
    split
    · have moved := comesTo_moveEngine s d .clockUp (some time)
      have target : (s.moveEngine d .clockUp (some time)).target = s.target :=
        target_of_standsOn moved.side.moveSide (moved.standsOn (by rw [at_]; exact ⟨nofun, nofun⟩) ⟨nofun, nofun⟩)
      have on := each .run (s.moveEngine d .clockUp (some time)) nofun (fits.next rfl (congrFun target d) within)
        (by rw [engine_moveEngine_self]; exact ⟨nofun, nofun⟩)
        (by rw [target]; exact apart_next near (.inl ⟨by decide, above⟩))
      rw [target] at on
      exact on.rebase moved.side (turns_moveEngine d _ _ s) ⟨_, _, engine_moveEngine_self s d _ _⟩ rfl rfl rfl
    · exact comesTo_moveEngine s d .clockUp (some time)
  · rw [if_neg above]
    cases target : s.target d with
    | off => exact comesTo_moveEngine s d .draining (some r.drain)
    | retain => exact comesTo_stays at_ (still target)
    | run => rw [target] at above; exact absurd (by decide) above
    | boost => rw [target] at above; exact absurd (by decide) above

/-- R53, R60, R62, R63: on from RUN. -/
theorem comesTo_beginStep_run (each : comesWithin arrive d r n) (fits : s.fits d r .run)
    (at_ : (s.engine d).state = .run) (still : s.target d = .run → (s.engine d).timer = none)
    (near : Level.run.apart (s.target d) ≤ n + 1) :
    ComesTo s (beginStep arrive d .run s) d (chainFromRun r (s.target d)) := by
  have ⟨record, ranges, within, bound⟩ := fits
  have stands : (s.engine d).state.stands := by rw [at_]; exact ⟨nofun, nofun⟩
  simp only [beginStep, record]
  rcases lt_trichotomy (s.target d).num Level.run.num with below | same | above
  · rw [if_neg (Nat.lt_asymm below), if_pos below, chainFromRun_below below r (s.ckokSeen d)]
    exact each .retain s nofun (fits.next rfl rfl (Nat.le_of_lt within)) stands
      (apart_next near (.inr ⟨Nat.le_of_lt_succ below, by decide⟩))
  · rw [if_neg (Nat.not_lt.2 same.le), if_neg (Nat.not_lt.2 same.ge)]
    have target : s.target d = .run := num_injective same
    rw [target]
    exact comesTo_stays at_ (still target)
  · have target : s.target d = .boost := num_injective (Nat.le_antisymm (num_le_boost _) above)
    rw [target] at bound
    obtain ⟨time, settle⟩ := boostSettle_of_boost ranges bound
    rw [if_pos above, target, chainFromRun, settle]
    cases time with
    | zero =>
      have on := each .boost s nofun (fits.next rfl rfl bound) stands (by rw [target]; exact Nat.zero_le n)
      rw [target] at on
      exact on
    | succ time => exact comesTo_moveEngine s d .boostUp (some (time + 1))

/-- R53, R61: on from BOOST. -/
theorem comesTo_beginStep_boost (each : comesWithin arrive d r n) (fits : s.fits d r .boost)
    (at_ : (s.engine d).state = .boost) (still : s.target d = .boost → (s.engine d).timer = none)
    (near : Level.boost.apart (s.target d) ≤ n + 1) :
    ComesTo s (beginStep arrive d .boost s) d (chainFromBoost r (s.target d)) := by
  have ⟨record, ranges, within, bound⟩ := fits
  have stands : (s.engine d).state.stands := by rw [at_]; exact ⟨nofun, nofun⟩
  obtain ⟨time, settle⟩ := boostSettle_of_boost ranges within
  simp only [beginStep, record]
  by_cases below : (s.target d).num < Level.boost.num
  · rw [if_pos below, chainFromBoost_below below, settle]
    cases time with
    | zero =>
      exact each .run s nofun (fits.next rfl rfl (Nat.le_of_lt within)) stands
        (apart_next near (.inr ⟨Nat.le_of_lt_succ below, by decide⟩))
    | succ time => exact comesTo_moveEngine s d .boostDown (some (time + 1))
  · rw [if_neg below]
    have target : s.target d = .boost := num_injective (Nat.le_antisymm (num_le_boost _) (Nat.not_lt.1 below))
    rw [target]
    exact comesTo_stays at_ (still target)

/-- R53: on from a level with the rail on. -/
theorem comesTo_beginStep {level : Level} (up : level ≠ .off) (each : comesWithin arrive d r n)
    (fits : s.fits d r level) (at_ : (s.engine d).state = level.engineState)
    (still : s.target d = level → (s.engine d).timer = none)
    (near : level.apart (s.target d) ≤ n + 1) :
    ComesTo s (beginStep arrive d level s) d (chainFrom r (s.target d) (s.ckokSeen d) level) := by
  cases level with
  | off => exact absurd rfl up
  | retain => exact comesTo_beginStep_retain each fits at_ still near
  | run => exact comesTo_beginStep_run each fits at_ still near
  | boost => exact comesTo_beginStep_boost each fits at_ still near

end

theorem chainFrom_at {r : DomainRecord} {level : Level} (ckok : Bool) :
    chainFrom r level ckok level = ⟨level.engineState, none, []⟩ := by
  cases level <;> rfl

/-- R52, R53: an arrival in its event, for a chain that is not cut short. -/
theorem comesWithin_arriveWithin (d : Managed) (r : DomainRecord) (n : Nat) :
    comesWithin (arriveWithin n d) d r n := by
  induction n with
  | zero =>
    intro level s _ _ _ near
    rw [eq_of_apart_zero near, chainFrom_at]
    exact comesTo_enterLevel s d level
  | succ n ih =>
    intro level s up fits stands near
    have entered := comesTo_enterLevel s d level
    have target := target_of_standsOn entered.side.moveSide (entered.standsOn stands (engineState_stands up))
    have here : (enterLevel d level s).engine d = { s.engine d with state := level.engineState, timer := none } :=
      entered.engine
    have ⟨_, _, within, _⟩ := fits
    have on := comesTo_beginStep up ih (fits.next entered.side.record (congrFun target d) within) (by rw [here])
      (fun _ => by rw [here]) (by rw [target]; exact near)
    rw [target, entered.side.ckokSeen] at on
    exact entered.goOn on

/-- R52, R53: the arrival of a domain at a level with the rail on, in closed form. -/
theorem comesTo_arrive {d : Managed} {r : DomainRecord} {level : Level} {s : State} (up : level ≠ .off)
    (fits : s.fits d r level) (stands : (s.engine d).state.stands) :
    ComesTo s (arrive d level s) d ((chainFrom r (s.target d) (s.ckokSeen d) level).after level) := by
  have near : level.apart (s.target d) ≤ Config.chainBound := by
    unfold Level.apart Config.chainBound
    have := num_le_boost level
    have := num_le_boost (s.target d)
    simp only [Level.num] at *
    omega
  exact comesWithin_arriveWithin d r Config.chainBound level s up fits stands near

/-- So it is of an arrival from a state to which the engine has moved in the same event. -/
theorem comesTo_arrive_of_moved {d : Managed} {r : DomainRecord} {level : Level} {s : State} (up : level ≠ .off)
    (fits : s.fits d r level) (before : (s.engine d).state.stands) {st : EngineState} (between : st.stands)
    (n : Option Nat) : ComesTo s (arrive d level (s.moveEngine d st n)) d
      ((chainFrom r (s.target d) (s.ckokSeen d) level).after level) := by
  have moved := comesTo_moveEngine s d st n
  have target : (s.moveEngine d st n).target = s.target :=
    target_of_standsOn moved.side.moveSide (moved.standsOn before between)
  have ⟨_, _, within, _⟩ := fits
  have on := comesTo_arrive up (fits.next moved.side.record (congrFun target d) within)
    (by rw [engine_moveEngine_self]; exact between)
  rw [target] at on
  exact on.rebase moved.side (turns_moveEngine d st n s) ⟨_, _, engine_moveEngine_self s d st n⟩ rfl rfl rfl

end Sys2Proof.Machine
end

section
/-! What every event of the engines ends with, said against the state it began in: part state, baselines and pins
follow, and nothing else changes (R50, R113, R182). -/

namespace Sys2Proof.Machine

theorem detectorActive_congr {s t : State} (partState : t.partState = s.partState) (engines : t.engine = s.engine)
    {k : LineId} (enabled : (t.wake k).enabled = (s.wake k).enabled) (home : (t.wake k).home = (s.wake k).home) :
    t.detectorActive k = s.detectorActive k := by
  have assured : t.assured = s.assured := assured_congr fun d => by rw [engines]
  unfold State.detectorActive
  rw [partState, enabled, home, assured]

theorem refreshDetector_fields (s : State) (k : LineId) :
    (refreshDetector s k).enabled = (s.wake k).enabled ∧ (refreshDetector s k).home = (s.wake k).home := by
  unfold refreshDetector
  split <;> exact ⟨rfl, rfl⟩

theorem engines_closeEvent (order : List Managed) (old new : State) :
    (closeEvent order old new).engines = new.engines := by rw [closeEvent_eq]

theorem records_closeEvent (order : List Managed) (old new : State) :
    (closeEvent order old new).records = new.records := by rw [closeEvent_eq]

theorem engine_closeEvent (order : List Managed) (old new : State) :
    (closeEvent order old new).engine = new.engine := by
  funext d
  simp only [State.engine, engines_closeEvent]

/-- The end of an event that led to u from s by moves of the engines. -/
theorem closeEvent_frame (order : List Managed) {s u : State} (side : moveSide s u) :
    closeEvent order s u = { u with
      partState := partStateAfter s (closeEvent order s u)
      wakes := Vector.ofFn (refreshedWake s (closeEvent order s u))
      pinLog := u.pinLog ++ pinChanges order s (closeEvent order s u) } := by
  have down : (closeEvent order s u).allDown = u.allDown := allDown_congr fun d => by rw [engine_closeEvent]
  have kept : u.partState = s.partState ∧ u.wake = s.wake ∧ u.lines = s.lines := by
    obtain ⟨_, _, _, _, _, rfl⟩ := side
    exact ⟨rfl, rfl, rfl⟩
  obtain ⟨partState, wake, lines⟩ := kept
  have ended : (endStopping u).wake = s.wake ∧ (endStopping u).lines = s.lines := by
    rw [endStopping_eq]
    exact ⟨wake, lines⟩
  have active : ∀ k, (closeEvent order s u).detectorActive k = (endStopping u).detectorActive k := by
    intro k
    have fields := refreshDetector_fields (endStopping u) k
    have here : (closeEvent order s u).wake k = refreshDetector (endStopping u) k := by
      rw [closeEvent_eq]; simp [State.wake]
    refine detectorActive_congr ?_ ?_ (by rw [here, fields.1]) (by rw [here, fields.2])
    · rw [closeEvent_eq, endStopping_eq]
    · rw [engine_closeEvent, endStopping_eq]; rfl
  have wakes : refreshDetector (endStopping u) = refreshedWake s (closeEvent order s u) := by
    funext k
    unfold refreshDetector refreshedWake
    rw [active, ended.1, ended.2]
    split <;> rfl
  conv_lhs => rw [closeEvent_eq, wakes, partState, ← down]
  rw [pinChanges_congr (engines_closeEvent order s u) (records_closeEvent order s u)]
  rfl

end Sys2Proof.Machine
end

section
/-! The ramp arbiter's grants: what one grant leaves, the heads that fit one after another, and the end of the chain
(R57, R58, R73 to R76). -/

namespace Sys2Proof.Machine

/-! ### Who waits -/

theorem queueLaw_move {d : Managed} {s t : State} (h : Move d s t) (hs : queueLaw s) : queueLaw t := by
  have turns := h.turns
  cases h with
  | log => exact hs
  | queue at_ => exact queueLaw_of_join turns rfl (by rw [at_]; decide) (by simp) hs
  | grant head => exact queueLaw_of_leave turns (by rw [head, filter_head (head ▸ hs.1)]; rfl) (by simp) hs
  | withdraw => exact queueLaw_of_leave turns rfl (by rw [engine_arrived_self]; exact level_ne_waitBudget .off) hs
  | settled at_ =>
    exact queueLaw_of_turn turns rfl (iff_of_false (by rw [engine_arrived_self]; exact level_ne_waitBudget .retain)
      (ne_waitBudget_of_holdsWeight at_)) hs
  | @reach level reaches =>
    exact queueLaw_of_turn turns rfl (iff_of_false (by rw [engine_arrived_self]; exact level_ne_waitBudget level)
      reaches.calm.2) hs
  | complete => exact queueLaw_of_turn turns rfl (by unfold completeDrain; rw [engine_setEngine_self]) hs
  | clear at_ =>
    exact queueLaw_of_turn turns rfl (iff_of_false (by rw [engine_arrived_self]; exact level_ne_waitBudget .off)
      (by rw [at_]; decide)) hs
  | _ => exact queueLaw_of_turn turns rfl (by simp [*]) hs

/-- The laws of the queue and of undefined domains, which moves keep together. -/
theorem queueLaws_moves {s t : State} (h : Moves s t) (hs : queueLaw s ∧ definedLaw s) : queueLaw t ∧ definedLaw t :=
  h.keeps (P := fun s => queueLaw s ∧ definedLaw s)
    (fun _ _ _ move laws => ⟨queueLaw_move move laws.1, definedLaw_move move laws.1 laws.2⟩) hs

theorem waits_and_record_of_queued {s : State} {d : Managed} (queue : queueLaw s) (defined : definedLaw s)
    (mem : d ∈ s.rampQueue) : (s.engine d).state = .waitBudget ∧ ∃ r, s.record d = some r := by
  have waits := (queue.2 d).1 mem
  refine ⟨waits, Option.ne_none_iff_exists'.1 fun none => ?_⟩
  rw [defined d none] at waits
  cases waits

theorem weight_of_record {s : State} {d : Managed} {r : DomainRecord} (record : s.record d = some r) :
    s.weight d = r.weight := by
  unfold State.weight
  rw [record]

/-! ### One grant -/

/-- R76: d has left the head of the queue, its weight is taken and its rise begun. -/
def risen (d : Managed) (r : DomainRecord) (rest : List Managed) (s : State) : State :=
  State.moveEngine d .railUp (some r.pgoodTimeout) { s with rampQueue := rest, freeUnits := s.freeUnits - s.weight d }

theorem grantHead_eq {s : State} {d : Managed} {r : DomainRecord} (record : s.record d = some r) (rest : List Managed) :
    grantHead d rest s = if s.pgoodSeen d = true then seePgood d (risen d r rest s) else risen d r rest s := by
  have same : ({ s with rampQueue := rest, freeUnits := s.freeUnits - s.weight d } : State).record d = some r := record
  unfold grantHead enterRailUp
  rw [same]
  rfl

theorem seePgood_of_record {s : State} {d : Managed} {r : DomainRecord} (record : s.record d = some r) :
    seePgood d s = if r.settle = 0 then endSettle d s else s.moveEngine d .settle (some r.settle) := by
  unfold seePgood
  rw [record]

/-- R57, R76: a grant that does not return the weight in its event. -/
theorem grantHead_rises {s : State} {d : Managed} {r : DomainRecord} (record : s.record d = some r)
    (plain : ¬ (s.pgoodSeen d = true ∧ r.settle = 0)) (rest : List Managed) :
    grantHead d rest s =
      State.setEngine d (s.granted d r) { s with rampQueue := rest, freeUnits := s.freeUnits - s.weight d } := by
  rw [grantHead_eq record]
  unfold State.granted
  split
  · rename_i seen
    have settles : r.settle ≠ 0 := fun none => plain ⟨seen, none⟩
    rw [seePgood_of_record (s := risen d r rest s) record, if_neg settles]
    simp [risen, State.moveEngine, State.setEngine, State.engine]
  · rfl

/-- R77: the weight of a domain that has just risen is back as it was. -/
theorem returnWeight_risen {s : State} {d : Managed} (fits : s.weight d ≤ s.freeUnits) (r : DomainRecord)
    (rest : List Managed) :
    returnWeight d (risen d r rest s) =
      State.moveEngine d .railUp (some r.pgoodTimeout) { s with rampQueue := rest } := by
  have held : (risen d r rest s).heldWeight d = s.weight d := heldWeight_of_state (st := .railUp) (by simp [risen])
  have units : (risen d r rest s).freeUnits + s.weight d = s.freeUnits := Nat.sub_add_cancel fits
  unfold returnWeight
  rw [held, units]
  rfl

/-- R57, R58, R76: a grant that returns the weight in its event. -/
theorem grantHead_arrives {s : State} {d : Managed} {r : DomainRecord} (record : s.record d = some r)
    (chains : s.pgoodSeen d = true ∧ r.settle = 0) (fits : s.weight d ≤ s.freeUnits) (rest : List Managed) :
    grantHead d rest s =
      arrive d .retain (State.moveEngine d .railUp (some r.pgoodTimeout) { s with rampQueue := rest }) := by
  rw [grantHead_eq record, if_pos chains.1, seePgood_of_record (s := risen d r rest s) record, if_pos chains.2,
    endSettle, returnWeight_risen fits]

/-- R58, R76: where such a grant takes the domain. -/
theorem comesTo_grantHead {s : State} {d : Managed} {r : DomainRecord} {rest : List Managed}
    (fits : State.fits { s with rampQueue := rest } d r .retain) (waits : (s.engine d).state = .waitBudget)
    (chains : s.pgoodSeen d = true ∧ r.settle = 0) (room : s.weight d ≤ s.freeUnits) :
    ComesTo { s with rampQueue := rest } (grantHead d rest s) d
      ((chainFrom r (State.target { s with rampQueue := rest } d) (s.ckokSeen d) .retain).after .retain) := by
  rw [grantHead_arrives (s := s) fits.1 chains room]
  have stands : (State.engine { s with rampQueue := rest } d).state.stands :=
    (congrArg EngineState.stands waits).mpr ⟨nofun, nofun⟩
  exact comesTo_arrive_of_moved (level := .retain) nofun fits stands (st := .railUp) ⟨nofun, nofun⟩ _

/-- R52, R57, R58, R76: one grant, its pins logged. -/
theorem grantOutcome_grantHead {s : State} {d : Managed} {r : DomainRecord} {rest : List Managed}
    (record : s.record d = some r) (head : s.rampQueue = d :: rest) (room : s.weight d ≤ s.freeUnits)
    (waits : (s.engine d).state = .waitBudget) (ranges : r.inRange d) (bound : (s.target d).num ≤ r.maxLevel.num) :
    grantOutcome s (logPins [d] s (grantHead d rest s)) d r := by
  have tail : s.rampQueue.tail = rest := by rw [head]; rfl
  have pins : pinChanges [d] s (logPins [d] s (grantHead d rest s)) = pinChanges [d] s (grantHead d rest s) :=
    pinChanges_congr rfl rfl
  refine ⟨?_, ?_⟩
  · rw [tail]
    split
    · rename_i chains
      have ⟨_, _, above, _⟩ := ranges
      have up : Level.retain.num ≤ r.maxLevel.num := ne_off_iff.1 above
      have same : State.target { s with rampQueue := rest } = s.target :=
        target_of_standsOn ⟨_, _, _, _, _, rfl⟩ fun _ => .inl rfl
      have comes := comesTo_grantHead (rest := rest) ⟨record, ranges, up, by rwa [same]⟩ waits chains room
      exact ⟨comes.arrivesAndGoesOn, comes.units⟩
    · rename_i plain
      rw [grantHead_rises record plain, ← weight_of_record record]
      refine ⟨rfl, rfl, rfl, fun e => ?_⟩
      exact engine_setEngine _ e d _
  · obtain ⟨_, _, _, _, same⟩ := engineSide_grantHead d rest s
    rw [pins, logPins, same]

/-! ### The chain of grants, whatever comes of each -/

/-- R53: a domain that has arrived with its rail on ends its chain with the rail on or draining. -/
theorem chainFrom_canFail {level : Level} (up : level ≠ .off) (r : DomainRecord) (target : Level) (ckok : Bool) :
    (chainFrom r target ckok level).state.canFail = true := by
  have run : (chainFromRun r target).state.canFail = true := by
    cases target <;> simp only [chainFromRun]
    case boost => split <;> rfl
    all_goals rfl
  cases level with
  | off => exact absurd rfl up
  | retain =>
    cases target <;> simp only [chainFrom, chainFromRetain]
    case off => rfl
    case retain => rfl
    all_goals
      split
      · exact run
      · rfl
  | run => exact run
  | boost =>
    cases target <;> simp only [chainFrom, chainFromBoost]
    case boost => rfl
    all_goals
      split
      · exact run
      · rfl

theorem stands_of_canFail {e : EngineState} (h : e.canFail = true) : e.stands := by
  constructor <;> (rintro rfl; cases h)

/-- What a grant of d does to the engines: d's rail is on or drains, and children may go on from their parent to the
queue. -/
structure GrantTurns (s t : State) (d : Managed) : Prop where
  before : (s.engine d).state = .waitBudget
  after : (t.engine d).state.canFail = true
  others : ∀ e, e ≠ d → t.engine e = s.engine e ∨
    (s.engine e).state = .waitParent ∧ (t.engine e).state = .waitBudget

theorem grantTurns_of_grantOutcome {s t : State} {d : Managed} {r : DomainRecord}
    (waits : (s.engine d).state = .waitBudget) (h : grantOutcome s t d r) : GrantTurns s t d := by
  obtain ⟨h, _⟩ := h
  split at h
  · obtain ⟨⟨engine, ⟨_, others⟩, _⟩, _⟩ := h
    refine ⟨waits, ?_, fun e other => ?_⟩
    · rw [engine]
      exact chainFrom_canFail (by decide) r _ _
    · rw [others e other]
      split
      · rename_i mem
        exact .inr ⟨waits_of_mem_releases (s := { s with rampQueue := s.rampQueue.tail }) mem, rfl⟩
      · exact .inl rfl
  · obtain ⟨_, _, _, engines⟩ := h
    refine ⟨waits, ?_, fun e other => .inl (by rw [engines, if_neg other])⟩
    rw [engines, if_pos rfl]
    unfold State.granted
    split <;> rfl

theorem GrantTurns.standsOn {s t : State} {d : Managed} (h : GrantTurns s t d) : standsOn s t := by
  intro e
  by_cases same : e = d
  · subst e
    exact .inr ⟨by rw [h.before]; exact ⟨nofun, nofun⟩, stands_of_canFail h.after⟩
  · rcases h.others e same with eq | ⟨before, after⟩
    · exact .inl eq
    · exact .inr ⟨by rw [before]; exact ⟨nofun, nofun⟩, by rw [after]; exact ⟨nofun, nofun⟩⟩

/-- The domains that a grant event may still grant: those in the queue and those that may join it. -/
def State.grantable (s : State) : Finset Managed :=
  Finset.univ.filter fun d => (s.engine d).state = .waitParent ∨ (s.engine d).state = .waitBudget

/-- R76: no domain is granted twice in an event. -/
theorem GrantTurns.grantable_lt {s t : State} {d : Managed} (h : GrantTurns s t d) :
    t.grantable.card < s.grantable.card := by
  refine Finset.card_lt_card ((Finset.ssubset_iff_of_subset fun e mem => ?_).2 ⟨d, ?_, ?_⟩)
  · rw [State.grantable, Finset.mem_filter] at mem ⊢
    refine ⟨Finset.mem_univ e, ?_⟩
    by_cases same : e = d
    · subst e; exact .inr h.before
    · rcases h.others e same with eq | ⟨before, _⟩
      · rw [← eq]; exact mem.2
      · exact .inl before
  · exact Finset.mem_filter.2 ⟨Finset.mem_univ d, .inr h.before⟩
  · intro mem
    have on := h.after
    rcases (Finset.mem_filter.1 mem).2 with at_ | at_ <;> rw [at_] at on <;> cases on

/-- The laws that a grant rests on. -/
def grantLaw (s : State) : Prop := recordLaw s ∧ queueLaw s ∧ definedLaw s ∧ targetBound s

/-- R76: no head fits, or there is none. -/
def State.grantsEnd (s : State) : Prop := ∀ d ∈ s.rampQueue.head?, s.freeUnits < s.weight d

theorem grantChain_of_end {s : State} (h : s.grantsEnd) (n : Nat) : grantChain n s = s := by
  cases n with
  | zero => rfl
  | succ n =>
    unfold grantChain
    split
    · rename_i d rest head
      exact if_neg (Nat.not_le.2 (h d (by rw [head]; rfl)))
    · rfl

theorem grantChain_of_fit {s : State} {d : Managed} {rest : List Managed} (head : s.rampQueue = d :: rest)
    (room : s.weight d ≤ s.freeUnits) (n : Nat) :
    grantChain (n + 1) s = grantChain n (logPins [d] s (grantHead d rest s)) := by
  rw [grantChain, head]
  exact if_pos room

theorem grantsEnd_or_fit (s : State) :
    s.grantsEnd ∨ ∃ d rest, s.rampQueue = d :: rest ∧ s.weight d ≤ s.freeUnits := by
  unfold State.grantsEnd
  cases queue : s.rampQueue with
  | nil => exact .inl (by simp)
  | cons d rest =>
    rcases Nat.lt_or_ge s.freeUnits (s.weight d) with short | room
    · exact .inl (by simpa using short)
    · exact .inr ⟨d, rest, rfl, room⟩

/-- R52, R57, R58, R76: one grant in a lawful state. -/
theorem grantOutcome_of_head {s : State} (laws : grantLaw s) {d : Managed} {rest : List Managed}
    (head : s.rampQueue = d :: rest) (room : s.weight d ≤ s.freeUnits) :
    ∃ r, s.record d = some r ∧ r.weight ≤ s.freeUnits ∧
      grantOutcome s (logPins [d] s (grantHead d rest s)) d r := by
  obtain ⟨ranges, queue, defined, bound⟩ := laws
  obtain ⟨waits, r, record⟩ := waits_and_record_of_queued queue defined (by rw [head]; exact List.mem_cons_self)
  exact ⟨r, record, by rwa [← weight_of_record record],
    grantOutcome_grantHead record head room waits (ranges d r record) (bound d r record)⟩

theorem grantTurns_of_head {s : State} (laws : grantLaw s) {d : Managed} {rest : List Managed}
    (head : s.rampQueue = d :: rest) (room : s.weight d ≤ s.freeUnits) :
    GrantTurns s (logPins [d] s (grantHead d rest s)) d := by
  obtain ⟨r, _, _, outcome⟩ := grantOutcome_of_head laws head room
  obtain ⟨_, queue, _, _⟩ := laws
  exact grantTurns_of_grantOutcome ((queue.2 d).1 (by rw [head]; exact List.mem_cons_self)) outcome

theorem grantLaw_of_grant {s : State} (laws : grantLaw s) {d : Managed} {rest : List Managed}
    (head : s.rampQueue = d :: rest) (room : s.weight d ≤ s.freeUnits) :
    grantLaw (logPins [d] s (grantHead d rest s)) := by
  have turns := grantTurns_of_head laws head room
  obtain ⟨ranges, queue, defined, bound⟩ := laws
  have moves : Moves s (logPins [d] s (grantHead d rest s)) := (moves_grantHead head room).tail ⟨d, .log _⟩
  obtain ⟨queue, defined⟩ := queueLaws_moves moves ⟨queue, defined⟩
  refine ⟨?_, queue, defined, ?_⟩
  · unfold recordLaw
    rw [moves.side.record]
    exact ranges
  · unfold targetBound
    rw [moves.side.record, target_of_standsOn moves.side turns.standsOn]
    exact bound

/-- R76: the grants are taken one after another until the head does not fit. -/
theorem grantsTaken_grantChain (n : Nat) {s : State} (laws : grantLaw s) (few : s.grantable.card ≤ n) :
    (∃ granted, grantsTaken s granted (grantChain n s)) ∧ (grantChain n s).grantsEnd := by
  induction n generalizing s with
  | zero =>
    obtain ⟨_, ⟨_, queue⟩, _, _⟩ := laws
    have none : s.rampQueue = [] := by
      refine List.eq_nil_iff_forall_not_mem.2 fun d mem => ?_
      have waits := (queue d).1 mem
      have here : d ∈ s.grantable := Finset.mem_filter.2 ⟨Finset.mem_univ d, .inr waits⟩
      exact absurd (Finset.card_pos.2 ⟨d, here⟩) (by omega)
    exact ⟨⟨[], rfl⟩, fun d mem => by rw [show (grantChain 0 s).rampQueue = [] from none] at mem; cases mem⟩
  | succ n ih =>
    rcases grantsEnd_or_fit s with ended | ⟨d, rest, head, room⟩
    · rw [grantChain_of_end ended]
      exact ⟨⟨[], rfl⟩, ended⟩
    · rw [grantChain_of_fit head room]
      have fewer := (grantTurns_of_head laws head room).grantable_lt
      obtain ⟨r, record, fits, outcome⟩ := grantOutcome_of_head laws head room
      obtain ⟨⟨granted, taken⟩, ended⟩ := ih (grantLaw_of_grant laws head room) (by omega)
      exact ⟨⟨d :: granted, r, _, record, by rw [head]; rfl, fits, outcome, taken⟩, ended⟩

/-! ### The chain of grants in which none returns its weight -/

/-- R57, R76: from s to t these domains, the first of the queue, have begun their rise, and the rest waits on. -/
structure RisesOf (s t : State) (granted rest : List Managed) : Prop where
  inside : ∀ d ∈ granted, ∀ r ∈ s.record d, t.engine d = s.granted d r
  outside : ∀ d, d ∉ granted → t.engine d = s.engine d
  frame : t = { s with
    engines := t.engines
    rampQueue := rest
    freeUnits := s.freeUnits - (granted.map s.weight).sum
    pinLog := s.pinLog ++ pinChanges granted s t }

/-- R76: no domain of the queue both sees PGOOD and has a settle of 0. -/
def plainQueue (s : State) : Prop := ∀ d ∈ s.rampQueue, ∀ r ∈ s.record d, s.pgoodSeen d = false ∨ 0 < r.settle

theorem risesOf_nil (s : State) : RisesOf s s [] s.rampQueue :=
  ⟨fun _ mem => (nomatch mem), fun _ _ => rfl, by simp [pinChanges]⟩

theorem outputs_of_engine {s t : State} {d : Managed} (records : t.record = s.record)
    (engine : t.engine d = s.engine d) : t.outputs d = s.outputs d := by
  unfold State.outputs
  rw [records, engine]

theorem granted_congr {s t : State} {d : Managed} (seen : t.pgoodSeen d = s.pgoodSeen d)
    (engine : t.engine d = s.engine d) (r : DomainRecord) : t.granted d r = s.granted d r := by
  unfold State.granted
  rw [seen, engine]

/-- R57, R76: the grant of d that does not return its weight in its event, its pins logged. -/
def withGrant (d : Managed) (r : DomainRecord) (rest : List Managed) (s : State) : State :=
  logPins [d] s (State.setEngine d (s.granted d r)
    { s with rampQueue := rest, freeUnits := s.freeUnits - s.weight d })

theorem engine_withGrant (d e : Managed) (r : DomainRecord) (rest : List Managed) (s : State) :
    (withGrant d r rest s).engine e = if e = d then s.granted d r else s.engine e :=
  engine_setEngine _ e d _

theorem pinChanges_cons (d : Managed) (order : List Managed) (old new : State) :
    pinChanges (d :: order) old new = pinChanges [d] old new ++ pinChanges order old new := by
  simp [pinChanges]

/-- One grant ahead of others. -/
theorem RisesOf.cons {s t : State} {d : Managed} {granted left rest : List Managed} {r : DomainRecord}
    (record : s.record d = some r) (absent : d ∉ granted) (h : RisesOf (withGrant d r left s) t granted rest) :
    RisesOf s t (d :: granted) rest := by
  have engine := fun e => engine_withGrant d e r left s
  have same : ∀ e ∈ granted, (withGrant d r left s).engine e = s.engine e := fun e mem => by
    rw [engine, if_neg fun eq : e = d => absent (eq ▸ mem)]
  have here : t.engine d = (withGrant d r left s).engine d := h.outside d absent
  refine ⟨fun e mem r' record' => ?_, fun e out => ?_, ?_⟩
  · rcases List.mem_cons.1 mem with rfl | mem
    · cases record.symm.trans record'
      rw [here, engine, if_pos rfl]
    · rw [h.inside e mem r' record']
      exact granted_congr (s := s) (t := withGrant d r left s) rfl (same e mem) r'
  · rw [List.mem_cons, not_or] at out
    rw [h.outside e out.2, engine, if_neg out.1]
  · have records : t.record = s.record := by rw [h.frame]; rfl
    have units : (withGrant d r left s).freeUnits - (granted.map (withGrant d r left s).weight).sum =
        s.freeUnits - ((d :: granted).map s.weight).sum := by
      rw [List.map_cons, List.sum_cons, ← Nat.sub_sub]
      rfl
    have pins : (withGrant d r left s).pinLog ++ pinChanges granted (withGrant d r left s) t =
        s.pinLog ++ pinChanges (d :: granted) s t := by
      have own : pinChanges [d] s (withGrant d r left s) = pinChanges [d] s t := by
        simp only [pinChanges, List.flatMap_singleton, outputs_of_engine (s := withGrant d r left s) records here]
      have others : pinChanges granted (withGrant d r left s) t = pinChanges granted s t := by
        unfold pinChanges
        refine List.flatMap_congr fun e mem => ?_
        rw [outputs_of_engine (s := s) (t := withGrant d r left s) rfl (same e mem)]
      have logged : (withGrant d r left s).pinLog = s.pinLog ++ pinChanges [d] s (withGrant d r left s) := rfl
      rw [logged, own, others, List.append_assoc, ← pinChanges_cons]
    refine h.frame.trans ?_
    rw [units, pins]
    rfl

theorem fitting_congr {s t : State} (weight : t.weight = s.weight) (free : Nat) (l : List Managed) :
    fitting t free l = fitting s free l := by
  induction l generalizing free with
  | nil => rfl
  | cons d l ih => simp only [fitting, weight, ih]

theorem risesOf_of_end {s : State} (h : s.grantsEnd) (n : Nat) :
    RisesOf s (grantChain n s) (s.rampQueue.take (fitting s s.freeUnits s.rampQueue))
      (s.rampQueue.drop (fitting s s.freeUnits s.rampQueue)) := by
  have none : fitting s s.freeUnits s.rampQueue = 0 := by
    unfold State.grantsEnd at h
    cases queue : s.rampQueue with
    | nil => rfl
    | cons d rest => exact if_neg (Nat.not_le.2 (h d (by rw [queue]; rfl)))
  rw [grantChain_of_end h, none]
  exact risesOf_nil s

/-- R76: where no grant returns its weight in the event, the heads that fit one after another are granted. -/
theorem risesOf_grantChain (n : Nat) {s : State} (nodup : s.rampQueue.Nodup)
    (records : ∀ d ∈ s.rampQueue, ∃ r, s.record d = some r) (plain : plainQueue s) (few : s.rampQueue.length ≤ n) :
    RisesOf s (grantChain n s) (s.rampQueue.take (fitting s s.freeUnits s.rampQueue))
      (s.rampQueue.drop (fitting s s.freeUnits s.rampQueue)) := by
  induction n generalizing s with
  | zero =>
    have nil : s.rampQueue = [] := List.eq_nil_of_length_eq_zero (Nat.le_zero.1 few)
    exact risesOf_of_end (fun d mem => by rw [nil] at mem; cases mem) 0
  | succ n ih =>
    rcases grantsEnd_or_fit s with ended | ⟨d, rest, head, room⟩
    · exact risesOf_of_end ended (n + 1)
    · have mem : ∀ e ∈ rest, e ∈ s.rampQueue := fun e later => by rw [head]; exact List.mem_cons_of_mem d later
      have first : d ∈ s.rampQueue := by rw [head]; exact List.mem_cons_self
      obtain ⟨r, record⟩ := records d first
      have rises : ¬ (s.pgoodSeen d = true ∧ r.settle = 0) := by
        rintro ⟨seen, none⟩
        rcases plain d first r record with unseen | settles
        · rw [seen] at unseen; cases unseen
        · omega
      rw [head, List.nodup_cons] at nodup
      obtain ⟨absent, nodup⟩ := nodup
      have later := ih (s := withGrant d r rest s) nodup (fun e he => records e (mem e he))
        (fun e he => plain e (mem e he)) (by rw [head] at few; exact Nat.le_of_succ_le_succ few)
      have fit : fitting s s.freeUnits (d :: rest) =
          fitting (withGrant d r rest s) (s.freeUnits - s.weight d) rest + 1 := by
        rw [fitting, if_pos room, fitting_congr (s := s) (t := withGrant d r rest s) (weight_congr rfl)]
      rw [grantChain_of_fit head room, grantHead_rises record rises, head, fit, List.take_succ_cons,
        List.drop_succ_cons]
      exact later.cons record fun taken => absent (List.mem_of_mem_take taken)

/-! ### The grant event -/

theorem exec_rampGrant {s : State} (running : s.resetHeld = false) :
    exec .rampGrant s = .next (closeEvent [] s (grantChain Config.grantBound s)) := by
  have run : exec .rampGrant s =
      .next (if s.resetHeld = true then s else closeEvent [] s (grantChain Config.grantBound s)) := rfl
  rw [run, if_neg (by simp [running])]

/-- The end of a grant event, whose pins have been logged grant by grant. -/
theorem closeEvent_grants {s u : State} (side : moveSide s u) :
    closeEvent [] s u = { u with
      partState := partStateAfter s (closeEvent [] s u)
      wakes := Vector.ofFn (refreshedWake s (closeEvent [] s u)) } := by
  conv_lhs => rw [closeEvent_frame [] side]
  simp [pinChanges]

theorem rampGrant_plain {s : State} (queue : queueLaw s) (defined : definedLaw s) (plain : plainQueue s) :
    RisesOf s (grantChain Config.grantBound s) (s.rampQueue.take (fitting s s.freeUnits s.rampQueue))
      (s.rampQueue.drop (fitting s s.freeUnits s.rampQueue)) :=
  risesOf_grantChain Config.grantBound queue.1 (fun _ mem => (waits_and_record_of_queued queue defined mem).2) plain
    (queue.1.length_le_card.trans (Fintype.card_fin 15).le)

theorem RisesOf.close {s u : State} {granted rest : List Managed} (h : RisesOf s u granted rest) :
    closeEvent [] s u = { s with
      engines := (closeEvent [] s u).engines
      rampQueue := rest
      freeUnits := s.freeUnits - (granted.map s.weight).sum
      partState := partStateAfter s (closeEvent [] s u)
      wakes := Vector.ofFn (refreshedWake s (closeEvent [] s u))
      pinLog := s.pinLog ++ pinChanges granted s (closeEvent [] s u) } := by
  have close := closeEvent_grants (s := s) (u := u) ⟨_, _, _, _, _, h.frame⟩
  rw [pinChanges_congr (engines_closeEvent [] s u) (records_closeEvent [] s u), engines_closeEvent]
  refine close.trans ?_
  exact congrArg (fun t : State => { t with
    partState := partStateAfter s (closeEvent [] s u)
    wakes := Vector.ofFn (refreshedWake s (closeEvent [] s u)) }) h.frame

/-- Settles O46: without chains the heads that fit rise (`rampGrant_plain`), and in general the grants are those of
`grantsTaken_grantChain`; the event then ends as `closeEvent_grants` says. -/
theorem rampGrantServesTheQueueInOrder : Obligations.RampGrantServesTheQueueInOrder := by
  intro s running ranges queue defined
  refine ⟨fun plain => ?_, fun bound => ?_⟩
  · have rises := rampGrant_plain queue defined plain
    refine ⟨_, exec_rampGrant running, fun d mem r record => ?_, fun d out => ?_, rises.close⟩
    · rw [engine_closeEvent]; exact rises.inside d mem r record
    · rw [engine_closeEvent]; exact rises.outside d out
  · have few : s.grantable.card ≤ Config.grantBound :=
      (Finset.card_le_univ s.grantable).trans (Fintype.card_fin 15).le
    obtain ⟨⟨granted, taken⟩, ended⟩ := grantsTaken_grantChain _ ⟨ranges, queue, defined, bound⟩ few
    exact ⟨granted, _, _, taken, ended, exec_rampGrant running, closeEvent_grants (moves_grantChain _ s).side⟩

end Sys2Proof.Machine
end

section
/-! Every command answers a next state, and no command touches the queue of commands (R82, R140; log 3). -/

namespace Sys2Proof.Machine

/-! ### What leaves the queue of commands -/

theorem leaseSide.pending {s t : State} (h : leaseSide s t) : t.pending = s.pending := by
  obtain ⟨⟨_, _, _, _, _, rfl⟩, _⟩ := h
  rfl

theorem moveSide.pending {s t : State} (h : moveSide s t) : t.pending = s.pending := by
  obtain ⟨_, _, _, _, _, rfl⟩ := h
  rfl

theorem pending_lowerTimers (s : State) : (lowerTimers s).pending = s.pending := rfl

theorem pending_refreshDetectors (s : State) : (refreshDetectors s).pending = s.pending := by rw [refreshDetectors_eq]

theorem pending_closeEvent (order : List Managed) (old new : State) :
    (closeEvent order old new).pending = new.pending := by rw [closeEvent_eq]

/-- An event of the engines, from its moves to its end. -/
theorem Moves.pending_event {s t : State} (h : Moves s t) (order : List Managed) (old : State) :
    (closeEvent order old t).pending = s.pending :=
  (pending_closeEvent order old t).trans h.side.pending

/-- R83: so it is of a fault event. -/
theorem pending_takeFault (d : Managed) (cause : FaultCause) (s : State) : (takeFault d cause s).pending = s.pending := by
  obtain ⟨_, side, leases⟩ := faultEvent_sides d cause s
  exact (pending_closeEvent _ s _).trans (leases.side.pending.trans side.moveSide.pending)

theorem pending_takeReport (d : Managed) (s : State) : (takeReport d s).pending = s.pending := by
  unfold takeReport
  split
  · exact (leaseSide.foldl _ (fun t i => leaseSide_reportLease _ i t) _ (s.setReport d none)).pending
  · rfl

theorem pending_takeEdge (k : LineId) (level : Bool) (s : State) : (takeEdge k level s).pending = s.pending := by
  unfold takeEdge
  repeat' split
  case isTrue.isTrue => exact (leaseSide_wakeClaim k _).pending
  all_goals rfl

theorem pending_takeTapWord (bits : List Bool) (s : State) : (takeTapWord bits s).pending = s.pending := by
  unfold takeTapWord
  repeat' split
  case h_1 => exact (leaseSide_matchAddress _ s).pending
  all_goals rfl

/-! ### Requests -/

theorem pending_doAcquire (p : Agent) (body : List Byte) (s : State) : (doAcquire p body s).1.pending = s.pending := by
  unfold doAcquire
  repeat' split
  case h_2 => exact (leaseSide_placeLease _ _ s).pending
  all_goals rfl

theorem pending_modifyLease (i : SlotId) (level : Level) (l : Lease) (s : State) :
    (modifyLease i level l s).1.pending = s.pending := by
  unfold modifyLease accept
  dsimp only
  repeat' split
  all_goals rfl

theorem pending_doModify (p : Agent) (body : List Byte) (s : State) : (doModify p body s).1.pending = s.pending := by
  unfold doModify
  repeat' split
  all_goals first
    | rfl
    | exact pending_modifyLease _ _ _ s

theorem pending_doRelease (p : Agent) (body : List Byte) (s : State) : (doRelease p body s).1.pending = s.pending := by
  unfold doRelease
  repeat' split
  case h_2 => exact (leaseSide_freeSlot _ s).pending
  all_goals rfl

theorem pending_doTakeNotice (p : Agent) (body : List Byte) (s : State) :
    (doTakeNotice p body s).1.pending = s.pending := by
  unfold doTakeNotice
  split
  · rfl
  · exact (leasesFrom_takenEffect _ _).side.pending

theorem pending_doSetWakeEnable (p : Agent) (body : List Byte) (s : State) :
    (doSetWakeEnable p body s).1.pending = s.pending := by
  unfold doSetWakeEnable accept
  dsimp only
  repeat' split
  case h_2.isFalse.isFalse => exact pending_refreshDetectors _
  all_goals rfl

theorem pending_doStart (p : Agent) (body : List Byte) (s : State) : (doStart p body s).1.pending = s.pending := by
  unfold doStart
  repeat' split
  case h_2 => exact pending_refreshDetectors _
  all_goals rfl

theorem pending_restartPart (s : State) : (restartPart s).pending = s.pending := by
  rw [restartPart, pending_refreshDetectors, endStopping_eq]
  exact (leaseSide_freeSlots s.usedSlots s).pending

theorem pending_doRevoke (p : Agent) (body : List Byte) (s : State) : (doRevoke p body s).1.pending = s.pending := by
  unfold doRevoke
  repeat' split
  case h_2 => exact (leaseSide_endLease _ _ s).pending
  all_goals rfl

theorem pending_doEvict (p : Agent) (body : List Byte) (s : State) : (doEvict p body s).1.pending = s.pending := by
  unfold doEvict
  split
  · rfl
  · exact (leaseSide_detachAgent _ s).pending

theorem pending_clearFaultOf (d : Managed) (s : State) : (clearFaultOf d s).pending = s.pending :=
  (moves_arrive d .off _).pending_event [d] s

theorem pending_doClearFault (p : Agent) (body : List Byte) (s : State) :
    (doClearFault p body s).1.pending = s.pending := by
  unfold doClearFault
  repeat' split
  case h_2.isFalse.isFalse.isFalse => exact pending_clearFaultOf _ s
  all_goals rfl

/-- R138: no owner of a request touches the queue of commands. -/
theorem pending_own (r : Request) (p : Agent) (body : List Byte) (s : State) :
    (r.own p body s).1.pending = s.pending := by
  cases r
  case queryDomain => exact congrArg State.pending (doQueryDomain_state p body s)
  case queryLease => exact congrArg State.pending (doQueryLease_state p body s)
  case listLeases => exact congrArg State.pending (doListLeases_state p body s)
  case acquire => exact pending_doAcquire p body s
  case modify => exact pending_doModify p body s
  case release => exact pending_doRelease p body s
  case takeNotice => exact pending_doTakeNotice p body s
  case detach => exact (leaseSide_detachAgent p s).pending
  case setWakeEnable => exact pending_doSetWakeEnable p body s
  case queryWake => exact congrArg State.pending (doQueryWake_state p body s)
  case start => exact pending_doStart p body s
  case restart => exact pending_restartPart s
  case revoke => exact pending_doRevoke p body s
  case evict => exact pending_doEvict p body s
  case clearFault => exact pending_doClearFault p body s
  all_goals
    simp only [Request.own, doStatus, doRenew, doDefineDomain, doDefineWake, doSetWindow, doClearWindow]
    repeat' split
  all_goals rfl

/-! ### Commands -/


theorem pending_request (r : Request) (p : Agent) (seq : Byte) (body : List Byte) (s : State) :
    (frameEnd (checked r r.own) p seq body s).pending = s.pending :=
  pending_frameEnd _ seq (pending_checked _ (pending_own r p body s))

theorem pending_byCode (code : Byte) (p : Agent) (seq : Byte) (body : List Byte) (s : State) :
    (frameEnd (requestByCode code) p seq body s).pending = s.pending := by
  refine pending_frameEnd _ seq ?_
  unfold requestByCode
  split
  · exact pending_checked _ (pending_own _ p body s)
  · rfl

theorem pending_exchangeEnd (p : Agent) (bits : List Bool) (s : State) : (exchangeEnd p bits s).pending = s.pending := by
  unfold exchangeEnd
  repeat' split
  case h_3 => exact pending_byCode _ p _ _ s
  all_goals rfl

/-- An event that a held reset shuts out. -/
theorem pending_unlessHeld {s t : State} (h : t.pending = s.pending) :
    (if s.resetHeld = true then s else t).pending = s.pending := by
  split
  · rfl
  · exact h

/-- An input that has taken its level, and on which the event acts unless a reset is held. -/
theorem pending_input {s u t : State} (input : u.pending = s.pending) (h : t.pending = u.pending) :
    (if s.resetHeld = true then u else t).pending = s.pending := by
  split
  · exact input
  · exact h.trans input

/-- An input event that is acted on in some states alone. -/
theorem pending_guarded {c : Prop} [Decidable c] {s t : State} (h : c → t.pending = s.pending) :
    (if c then t else s).pending = s.pending := by
  split
  · exact h ‹_›
  · rfl

theorem pending_onExpiry {st : EngineState} {d : Managed} {effect : State → State} {s : State}
    (h : (s.engine d).state = st → (effect s).pending = s.pending) : (onExpiry st d effect s).pending = s.pending := by
  refine pending_guarded fun due => h ?_
  have expiry := due.2
  simp only [State.expiryDue, Bool.and_eq_true, beq_iff_eq] at expiry
  exact expiry.1

theorem pending_endDrain {d : Managed} {s : State} (at_ : (s.engine d).state = .draining) :
    (endDrain d s).pending = s.pending := by
  unfold endDrain
  split
  · exact pending_takeFault d _ s
  · exact (moves_arrive_of_reaches (.drained at_)).pending_event _ s

/-- Settles O2: every arm of `exec` answers a next state, whose queue of commands `pending_own` keeps for a request and
the operations' frames keep for an event. -/
theorem everyCommandAnswersANextState : Obligations.EveryCommandAnswersANextState := by
  intro c s
  cases c
  all_goals refine ⟨_, rfl, ?_⟩
  case status p seq body => exact pending_request .status p seq body s
  case queryDomain p seq body => exact pending_request .queryDomain p seq body s
  case queryLease p seq body => exact pending_request .queryLease p seq body s
  case listLeases p seq body => exact pending_request .listLeases p seq body s
  case acquire p seq body => exact pending_request .acquire p seq body s
  case renew p seq body => exact pending_request .renew p seq body s
  case modify p seq body => exact pending_request .modify p seq body s
  case release p seq body => exact pending_request .release p seq body s
  case takeNotice p seq body => exact pending_request .takeNotice p seq body s
  case detach p seq body => exact pending_request .detach p seq body s
  case defineDomain p seq body => exact pending_request .defineDomain p seq body s
  case defineWake p seq body => exact pending_request .defineWake p seq body s
  case setWindow p seq body => exact pending_request .setWindow p seq body s
  case clearWindow p seq body => exact pending_request .clearWindow p seq body s
  case setWakeEnable p seq body => exact pending_request .setWakeEnable p seq body s
  case queryWake p seq body => exact pending_request .queryWake p seq body s
  case start p seq body => exact pending_request .start p seq body s
  case restart p seq body => exact pending_request .restart p seq body s
  case revoke p seq body => exact pending_request .revoke p seq body s
  case evict p seq body => exact pending_request .evict p seq body s
  case clearFault p seq body => exact pending_request .clearFault p seq body s
  case unknownRequest p seq code body => exact pending_byCode code p seq body s
  case retransmission p seq code body => exact pending_byCode code p seq body s
  case badFrame p bits => exact pending_exchangeEnd p bits s
  case idleExchange p bits => exact pending_exchangeEnd p bits s
  case tapWord bits => exact pending_takeTapWord bits s
  case lineEvent k b => exact pending_input rfl (pending_takeEdge k b _)
  case pgoodAsserted d =>
    exact pending_input rfl (pending_guarded fun h => (moves_seePgood h.1).pending_event _ _)
  case pgoodDeasserted d => exact pending_input rfl (pending_guarded fun _ => pending_takeFault d _ _)
  case ckokAsserted d =>
    exact pending_input rfl
      (pending_guarded fun h => (moves_arrive_of_reaches (.clock h.1 h.2)).pending_event _ _)
  case ckokDeasserted d => exact pending_input rfl (pending_guarded fun _ => pending_takeFault d _ _)
  case tick => exact pending_unlessHeld ((pending_lowerTimers _).trans (leaseSide_tickLeases s).pending)
  case leaseExpiry i =>
    exact pending_unlessHeld ((leaseSide_settleMarks s).trans (leaseSide_takeExpiry i _)).pending
  case railUpExpiry d => exact pending_onExpiry fun _ => pending_takeFault d _ s
  case settleExpiry d =>
    exact pending_onExpiry fun at_ => (moves_endSettle (by rw [at_]; rfl)).pending_event _ s
  case clockUpExpiry d => exact pending_onExpiry fun _ => pending_takeFault d _ s
  case boostUpExpiry d =>
    exact pending_onExpiry fun at_ => (moves_arrive_of_reaches (.boost at_)).pending_event _ s
  case boostDownExpiry d =>
    exact pending_onExpiry fun at_ => (moves_arrive_of_reaches (.run at_)).pending_event _ s
  case drainEnd d => exact pending_onExpiry pending_endDrain
  case faultDrainExpiry d => exact pending_onExpiry fun at_ => (Move.complete at_).moves.pending_event _ s
  case stepBegin d => exact pending_unlessHeld ((moves_takeStep d s).pending_event _ s)
  case rampGrant => exact pending_unlessHeld ((moves_grantChain _ s).pending_event _ s)
  case levelReachedReport d => exact pending_unlessHeld (pending_takeReport d s)
  case partReset => rfl
  case partResetRelease cs tfrm => exact pending_guarded fun _ => rfl
  case chipSelectDeasserted p => exact pending_unlessHeld rfl
  case tfrmDeasserted => exact pending_unlessHeld rfl

end Sys2Proof.Machine
end

section
/-! CLEAR_FAULT: its checks in their order, and the return of the domain to OFF, where nothing in its subtree wants it up
(R94, R95, R186). -/

namespace Sys2Proof.Machine

/-! ### The checks -/

/-- R139: outside STOPPING an executed CLEAR_FAULT is answered as its owner says. -/
theorem exec_clearFault {s : State} {seq : Byte} (executes : s.executes 0 seq = true) (taken : s.partState ≠ .stopping)
    (b : Byte) {s' : State} {st : Status} {body : List Byte}
    (own : doClearFault 0 [b] s = (s', { status := st, body := body })) :
    exec (.clearFault 0 seq [b]) s = .next (answer 0 seq st body s') := by
  have admitted : Request.clearFault.admission s.partState = none := if_neg taken
  have passes : checked .clearFault doClearFault 0 [b] s = doClearFault 0 [b] s :=
    checked_taken doClearFault (fun _ => rfl) admitted rfl
  have run : exec (.clearFault 0 seq [b]) s = .next (frameEnd (checked .clearFault doClearFault) 0 seq [b] s) := rfl
  rw [run, frameEnd_executes _ executes (by simp), passes, own]

/-- R186: D0 is no domain that has an engine. -/
theorem clearFaultDomain_root (s : State) : clearFaultDomain s [0] = .error .noDomain := rfl

/-- R186: the domain that a body names, or its refusal where it is undefined. -/
theorem clearFaultDomain_managed (s : State) (d : Managed) :
    clearFaultDomain s [managedCode d] = if (s.record d).isSome = true then .ok d else .error .noDomain := by
  have byte : byteAt [managedCode d] 0 = managedCode d := rfl
  simp only [clearFaultDomain, byte, decodeDomain_managedCode, asManaged_managedDomain]

/-- R94, R95: CLEAR_FAULT of a defined domain. -/
theorem doClearFault_defined {s : State} {d : Managed} (known : s.record d ≠ none) :
    doClearFault 0 [managedCode d] s =
      if (s.engine d).state ≠ .fault then refuse .notFaulted s
      else if s.drainBelow d = true then refuse .stillDraining s
      else if s.pgoodSeen d = true then refuse .stillPowered s
      else accept [faultCauseCode (s.engine d).cause] (clearFaultOf d s) := by
  simp only [doClearFault, clearFaultDomain_managed, if_pos (Option.isSome_iff_ne_none.2 known)]

/-- R94, order 2, at a domain in FAULT. -/
theorem drainBelow_iff {s : State} {d : Managed} (fault : (s.engine d).state = .fault) : s.drainBelow d = true ↔
    (s.engine d).drainComplete = false ∨ ∃ e, s.below d e = true ∧ (s.engine e).drains = true := by
  have own : (s.engine d).drains = !(s.engine d).drainComplete := by simp only [Engine.drains, fault]
  simp only [State.drainBelow, own, Bool.or_eq_true, List.any_eq_true, mem_descendants, below_iff, Bool.not_eq_true']

theorem pgoodSeen_of_defined {s : State} {d : Managed} (known : s.record d ≠ none) : s.pgoodSeen d = s.pgood[d] := by
  simp [State.pgoodSeen, State.pgoodSampled, Option.isSome_iff_ne_none.2 known]

/-! ### A subtree that wants nothing -/

/-- R13, R14: where no domain of a subtree has a live lease and none but its root is up, no target in it is above OFF. -/
theorem target_off_of_quiet {s : State} {d : Managed} (lists : ∀ e, e = d ∨ d ∈ s.ancestors e → s.list e = [])
    (down : ∀ e, d ∈ s.ancestors e → (s.engine e).down = true) (e : Managed) (inside : e = d ∨ d ∈ s.ancestors e) :
    s.target e = .off := by
  induction e using leavesUp with
  | each e ih =>
    have children : ((s.children (managedDomain e)).filter fun c => s.target c.1 != .off || !(s.engine c.1).down) = [] := by
      refine List.filter_eq_nil_iff.2 fun c child => ?_
      have walk := ancestors_of_place ((mem_children_iff_place s _ c.1 c.2).1 child)
      have under : d ∈ s.ancestors c.1 := by
        rw [walk, List.mem_cons]
        exact inside.imp Eq.symm id
      simp [ih c.1 (lt_of_mem_children child) (.inr under), down c.1 under]
    rw [target_eq, lists e inside, children]
    simp [Level.greatest]

/-- R52: an arrival at OFF where nothing is wanted begins no rise. -/
theorem arrive_off_of_target {s : State} (ranges : recordLaw s) {e : Managed}
    (target : (arrived e .off s).target e = .off) : arrive e .off s = arrived e .off s := by
  unfold arrive Config.chainBound arriveWithin
  rw [enterLevel_off ranges]
  unfold beginStep
  split
  · rfl
  · simp [target]

/-- R91, R94: a domain that has fallen and does not drain is down. -/
theorem down_of_fallen {e : Engine} (fallen : e.state.fallen = true) (still : e.drains = false) : e.down = true := by
  have standing : e.state = .off ∨ e.state = .draining ∨ e.state = .fault := by
    revert fallen
    cases e.state <;> decide
  rcases standing with at_ | at_ | at_
  · simp only [Engine.down, at_]
  · simp [Engine.drains, at_] at still
  · simpa [Engine.drains, Engine.down, at_] using still

/-- R91: under a domain in FAULT no domain has a live lease, and those that do not drain are down. -/
theorem quiet_of_fault {s : State} (faults : faultLaw s) {d : Managed} (fault : (s.engine d).state = .fault)
    (drains : s.drainBelow d = false) :
    (∀ e, e = d ∨ d ∈ s.ancestors e → s.list e = []) ∧ (∀ e, d ∈ s.ancestors e → (s.engine e).down = true) := by
  have faulted : ∀ e, e = d ∨ d ∈ s.ancestors e → s.faultAtOrAbove e = true := fun e inside =>
    (faultAtOrAbove_iff s e).2 ⟨d, inside.imp Eq.symm id, fault⟩
  refine ⟨fun e inside => (faults e (faulted e inside)).1, fun e under => ?_⟩
  refine down_of_fallen (faults e (faulted e (.inr under))).2 (Bool.eq_false_iff.2 fun draining => ?_)
  have below := (drainBelow_iff fault).2 (.inr ⟨e, (below_iff s d e).2 under, draining⟩)
  rw [drains] at below
  cases below

/-! ### An event that shows nothing -/

theorem assured_of_levels {s t : State} (same : ∀ d, (t.engine d).state.assured = (s.engine d).state.assured) :
    t.assured = s.assured := by
  funext p
  unfold State.assured
  split
  · exact same _
  · rfl

theorem outputChanges_self (d : Managed) (o : Outputs) : outputChanges d o o = [] := by
  obtain ⟨railen, drst, iso, ckrq, vsel⟩ := o
  simp [outputChanges]

/-- R113, R114: where the baselines are there exactly with the activity, a refresh changes nothing. -/
theorem refreshDetectors_of_law {s : State} (detectors : detectorLaw s) : refreshDetectors s = s := by
  have same : Vector.ofFn (refreshDetector s) = s.wakes := by
    refine Vector.ext fun k hk => ?_
    have there := detectors ⟨k, hk⟩
    rw [Vector.getElem_ofFn]
    change refreshDetector s ⟨k, hk⟩ = s.wake ⟨k, hk⟩
    unfold refreshDetector
    rw [← there]
    cases baseline : (s.wake ⟨k, hk⟩).baseline with
    | none => rw [if_neg (by simp), ← baseline]
    | some b => rw [if_pos Option.isSome_some, Option.getD_some, ← baseline]
  rw [refreshDetectors_eq, same]

/-- The end of an event outside STOPPING that changes no assured level and no output: nothing is left to do. -/
theorem closeEvent_of_unseen {s t : State} {d : Managed} (running : t.partState ≠ .stopping) (detectors : detectorLaw t)
    (outputs : t.outputs d = s.outputs d) : closeEvent [d] s t = t := by
  have ended : endStopping t = t := if_neg fun stopping => running stopping.1
  have pins : pinChanges [d] s t = [] := by
    simp only [pinChanges, List.flatMap_singleton, outputs, outputChanges_self]
  rw [closeEvent, ended, refreshDetectors_of_law detectors, logPins, pins, List.append_nil]

/-! ### The return to OFF -/

/-- R95: the state in which domain d has returned to OFF, its cause kept. -/
def clearedState (d : Managed) (s : State) : State :=
  arrived d .off (s.setEngine d { s.engine d with drainComplete := false })

theorem clearedState_eq (d : Managed) (s : State) : clearedState d s = { s with
    engines := s.engines.set d { state := .off, timer := none, cause := (s.engine d).cause, drainComplete := false }
    reports := s.reports.set d (some .off) } := by
  simp [clearedState, arrived, State.moveEngine, State.setEngine, State.setReport, State.engine, Level.engineState]

theorem list_clearedState (d : Managed) (s : State) : (clearedState d s).list = s.list := by rw [clearedState_eq]; rfl

theorem engine_clearedState_self (d : Managed) (s : State) : ((clearedState d s).engine d).state = .off := by
  rw [clearedState, engine_arrived_self]
  rfl

theorem turns_clearedState (d : Managed) (s : State) : Turns d s (clearedState d s) :=
  (turns_setEngine d _ s).trans (turns_arrived d .off _)

theorem detectorLaw_clearedState {s : State} {d : Managed} (fault : (s.engine d).state = .fault)
    (detectors : detectorLaw s) : detectorLaw (clearedState d s) := by
  have assured : (clearedState d s).assured = s.assured := assured_of_levels fun e => by
    by_cases same : e = d
    · subst e; rw [engine_clearedState_self, fault]; rfl
    · rw [(turns_clearedState d s).others e same]
  intro k
  have active : (clearedState d s).detectorActive k = s.detectorActive k := by
    unfold State.detectorActive
    rw [assured, clearedState_eq]
    rfl
  rw [active, ← detectors k, clearedState_eq]
  rfl

/-- R2, R3, R49: a domain in FAULT shows the outputs of OFF. -/
theorem outputs_clearedState {s : State} {d : Managed} (fault : (s.engine d).state = .fault) :
    (clearedState d s).outputs d = s.outputs d := by
  unfold State.outputs
  rw [(turns_clearedState d s).records, engine_clearedState_self, fault]
  rfl

/-- R95: with its fault drain and every drain below complete, the domain returns to OFF and nothing else moves. -/
theorem clearFaultOf_eq {s : State} {d : Managed} (faults : faultLaw s) (ranges : recordLaw s) (detectors : detectorLaw s)
    (running : s.partState ≠ .stopping) (fault : (s.engine d).state = .fault) (drains : s.drainBelow d = false) :
    clearFaultOf d s = clearedState d s := by
  have ⟨lists, down⟩ := quiet_of_fault faults fault drains
  have walk := ancestors_congr (turns_clearedState d s).records
  have target : (clearedState d s).target d = .off := by
    refine target_off_of_quiet (s := clearedState d s) (fun e inside => ?_) (fun e under => ?_) d (.inl rfl)
    · rw [walk] at inside
      rw [list_clearedState]
      exact lists e inside
    · rw [walk] at under
      by_cases same : e = d
      · subst e; simp only [Engine.down, engine_clearedState_self]
      · rw [(turns_clearedState d s).others e same]; exact down e under
  have arrives : arrive d .off (s.setEngine d { s.engine d with drainComplete := false }) = clearedState d s :=
    arrive_off_of_target (s := s.setEngine d { s.engine d with drainComplete := false }) ranges target
  rw [clearFaultOf, arrives]
  have calm : (clearedState d s).partState ≠ .stopping := by rw [clearedState_eq]; exact running
  exact closeEvent_of_unseen calm (detectorLaw_clearedState fault detectors) (outputs_clearedState fault)

/-- Settles O35: the checks are those of `doClearFault_defined`, and `clearFaultOf_eq` is the return to OFF. -/
theorem clearFaultReturnsTheDomainToOff : Obligations.ClearFaultReturnsTheDomainToOff := by
  intro s seq d executes running
  have answered := fun b => @exec_clearFault s seq executes running b
  refine ⟨answered _ ?_, fun undefined => answered _ ?_, fun known => ?_⟩
  · rw [doClearFault, clearFaultDomain_root]
    rfl
  · simp [doClearFault, clearFaultDomain_managed, undefined, refuse]
  · have own := doClearFault_defined known
    rw [pgoodSeen_of_defined known] at own
    by_cases fault : (s.engine d).state = .fault
    · rw [if_neg (not_not.2 fault)] at own ⊢
      split
      · rename_i draining
        rw [if_pos ((drainBelow_iff fault).2 draining)] at own
        exact answered _ own
      · rename_i quiet
        have still := fun draining => quiet ((drainBelow_iff fault).1 draining)
        rw [if_neg still] at own
        split
        · rename_i powered
          rw [if_pos powered] at own
          exact answered _ own
        · rename_i unpowered
          intro faults ranges detectors
          rw [if_neg unpowered, clearFaultOf_eq faults ranges detectors running fault (Bool.eq_false_iff.2 still),
            clearedState_eq] at own
          exact answered _ own
    · rw [if_pos fault] at own ⊢
      exact answered _ own

end Sys2Proof.Machine
end

section
/-! The ending of several leases in one event: endings one after another make one ending of all (R36, R38). -/

namespace Sys2Proof.Machine

/-! ### The reads of an ending -/

theorem lease_withEnded (order : List SlotId) (cause : SlotId → EndCause) (s : State) (i : SlotId) :
    (withEnded order cause s).lease i = if (order.contains i && s.liveAt i) = true then
      (s.lease i).map fun l => { l with state := .ended (cause i) } else s.lease i := by
  rw [State.lease, slot_withEnded]
  split <;> rfl

theorem handle_withEnded (order : List SlotId) (cause : SlotId → EndCause) (s : State) (i : SlotId) :
    (withEnded order cause s).handle i = s.handle i := by
  unfold State.handle
  rw [slot_withEnded]
  split <;> rfl

/-- An ending leaves the holder of every lease. -/
theorem holder_withEnded (order : List SlotId) (cause : SlotId → EndCause) (s : State) (i : SlotId) (a : Agent) :
    ((withEnded order cause s).lease i).any (fun l => l.holder == a) = (s.lease i).any fun l => l.holder == a := by
  rw [lease_withEnded]
  split
  · cases s.lease i <;> rfl
  · rfl

/-- What asks for a live lease is met after an ending by the slots that are not ended. -/
theorem any_live_withEnded (order : List SlotId) (cause : SlotId → EndCause) (s : State) (i : SlotId)
    (p : Lease → Bool) : ((withEnded order cause s).lease i).any (fun l => l.live && p l) =
      ((s.lease i).any (fun l => l.live && p l) && !order.contains i) := by
  rw [lease_withEnded]
  cases h : s.lease i with
  | none => simp
  | some l =>
    have dead : ({ l with state := .ended (cause i) } : Lease).live = false := rfl
    have here : s.liveAt i = l.live := by simp only [State.liveAt, h]
    rw [here]
    cases mem : order.contains i with
    | false => simp
    | true => cases live : l.live <;> simp [live, dead]

theorem liveOn_withEnded (order : List SlotId) (cause : SlotId → EndCause) (s : State) (d : Managed) (i : SlotId) :
    (withEnded order cause s).liveOn d i = (s.liveOn d i && !order.contains i) :=
  any_live_withEnded order cause s i fun l => l.domain == d

theorem watches_withEnded (order : List SlotId) (cause : SlotId → EndCause) (s : State) (w : WindowId) (i : SlotId) :
    (withEnded order cause s).watches w i = (s.watches w i && !order.contains i) :=
  any_live_withEnded order cause s i fun l => l.term.window? == some w

theorem liveAt_eq_any (s : State) (i : SlotId) : s.liveAt i = (s.lease i).any fun l => l.live && true := by
  unfold State.liveAt
  cases s.lease i <;> simp

theorem liveAt_withEnded (order : List SlotId) (cause : SlotId → EndCause) (s : State) (i : SlotId) :
    (withEnded order cause s).liveAt i = (s.liveAt i && !order.contains i) := by
  rw [liveAt_eq_any, liveAt_eq_any, any_live_withEnded]

/-- R112: a link stays unless its lease ends. -/
theorem link_withEnded (order : List SlotId) (cause : SlotId → EndCause) (s : State) (k : LineId) :
    ((withEnded order cause s).wake k).link =
      (s.wake k).link.filter fun h => !(order.contains h.slot && s.liveAt h.slot && s.handle h.slot == h) := by
  rw [wake_withEnded]
  cases link : (s.wake k).link with
  | none => exact link
  | some h =>
    rw [Option.any_some, Option.filter_some]
    cases order.contains h.slot && s.liveAt h.slot && s.handle h.slot == h with
    | true => rfl
    | false => exact link

/-- R36: where no lease ends, nothing changes. -/
theorem withEnded_nil (cause : SlotId → EndCause) (s : State) : withEnded [] cause s = s := by
  refine (leaseSide_withEnded [] cause s).ext (.refl s) (fun i => ?_) (fun d => ?_) (fun w => ?_) (fun k => ?_) fun a => ?_
  · rw [slot_withEnded]; rfl
  · rw [list_withEnded]; simp
  · rw [window_withEnded]; simp
  · rw [link_withEnded]; cases (s.wake k).link <;> rfl
  · rw [queue_withEnded]; simp

/-! ### Endings one after another -/

/-- The first ending takes its watchers from a window, the second takes those of its own that are left. -/
theorem length_watchers_append (s : State) (w : WindowId) (first later : List SlotId) :
    (allSlots.filter fun i => (first ++ later).contains i && s.watches w i).length =
      (allSlots.filter fun i => first.contains i && s.watches w i).length +
      (allSlots.filter fun i => later.contains i && (s.watches w i && !first.contains i)).length := by
  rw [List.length_eq_length_filter_add first.contains, List.filter_filter, List.filter_filter]
  congr 2
  all_goals
    refine List.filter_congr fun i _ => ?_
    cases h : first.contains i <;> cases k : later.contains i <;> simp_all

theorem slot_withEnded_append {first later : List SlotId} (apart : ∀ i ∈ first, i ∉ later) {c₁ c₂ c : SlotId → EndCause}
    (same₁ : ∀ i ∈ first, c i = c₁ i) (same₂ : ∀ i ∈ later, c i = c₂ i) (s : State) (i : SlotId) :
    (withEnded later c₂ (withEnded first c₁ s)).slot i = (withEnded (first ++ later) c s).slot i := by
  rw [slot_withEnded, slot_withEnded (first ++ later), liveAt_withEnded, lease_withEnded, slot_withEnded]
  by_cases here : i ∈ first
  · simp [here, apart i here, same₁ i here]
  · by_cases there : i ∈ later
    · simp [here, there, same₂ i there]
    · simp [here, there]

theorem link_withEnded_append (first later : List SlotId) (c₁ c₂ c : SlotId → EndCause) (s : State) (k : LineId) :
    ((withEnded later c₂ (withEnded first c₁ s)).wake k).link = ((withEnded (first ++ later) c s).wake k).link := by
  simp only [link_withEnded, liveAt_withEnded, handle_withEnded, Option.filter_filter, List.contains_append]
  refine congrArg (Option.filter · _) (funext fun h => ?_)
  cases first.contains h.slot <;> cases later.contains h.slot <;> simp

theorem queue_withEnded_append {first later : List SlotId} (apart : ∀ i ∈ first, i ∉ later) {c₁ c₂ c : SlotId → EndCause}
    (same₁ : ∀ i ∈ first, c i = c₁ i) (same₂ : ∀ i ∈ later, c i = c₂ i) (s : State) (a : Agent) :
    (withEnded later c₂ (withEnded first c₁ s)).queue a = (withEnded (first ++ later) c s).queue a := by
  simp only [queue_withEnded, liveAt_withEnded, holder_withEnded, handle_withEnded, List.filter_append, List.map_append,
    List.append_assoc]
  have live : ∀ i ∈ later, (s.liveAt i && !first.contains i) = s.liveAt i := by
    intro i mem
    have : i ∉ first := fun h => apart i h mem
    simp [this]
  congr 2
  · exact List.map_congr_left fun i mem => by rw [same₁ i (List.mem_filter.1 mem).1]
  · rw [List.filter_congr fun i mem => by rw [live i mem]]
    exact List.map_congr_left fun i mem => by rw [same₂ i (List.mem_filter.1 mem).1]

/-- R36, R38: two endings of different slots are one. -/
theorem withEnded_append {first later : List SlotId} (apart : ∀ i ∈ first, i ∉ later) {c₁ c₂ c : SlotId → EndCause}
    (same₁ : ∀ i ∈ first, c i = c₁ i) (same₂ : ∀ i ∈ later, c i = c₂ i) (s : State) :
    withEnded later c₂ (withEnded first c₁ s) = withEnded (first ++ later) c s := by
  refine ((leaseSide_withEnded _ _ s).trans (leaseSide_withEnded _ _ _)).ext (leaseSide_withEnded _ _ s)
    (slot_withEnded_append apart same₁ same₂ s) (fun d => ?_) (fun w => ?_)
    (link_withEnded_append first later c₁ c₂ c s) (queue_withEnded_append apart same₁ same₂ s)
  · simp only [list_withEnded, liveOn_withEnded, List.filter_filter]
    refine List.filter_congr fun i _ => ?_
    cases h : first.contains i <;> simp_all
  · simp only [window_withEnded, watches_withEnded, length_watchers_append, Nat.sub_sub]

/-- R38: the ending of the live leases in some slots, one after another. -/
theorem endAll_eq_withEnded {is : List SlotId} (nodup : is.Nodup) {s : State} (live : ∀ i ∈ is, s.liveAt i = true)
    (cause : EndCause) : endAll is cause s = withEnded is (fun _ => cause) s := by
  induction is generalizing s with
  | nil => exact (withEnded_nil _ s).symm
  | cons i is ih =>
    obtain ⟨absent, nodup⟩ := List.nodup_cons.1 nodup
    have first : endLease i cause s = withEnded [i] (fun _ => cause) s := by
      have here := live i List.mem_cons_self
      cases lease : s.lease i with
      | none => simp [State.liveAt, lease] at here
      | some l => exact endLease_eq_withEnded cause lease (by simpa [State.liveAt, lease] using here)
    have later : ∀ j ∈ is, (withEnded [i] (fun _ => cause) s).liveAt j = true := by
      intro j mem
      have other : j ≠ i := fun eq => absent (eq ▸ mem)
      rw [liveAt_withEnded, live j (List.mem_cons_of_mem i mem)]
      simp [other]
    have one : endAll (i :: is) cause s = endAll is cause (endLease i cause s) := rfl
    rw [one, first, ih nodup later]
    exact withEnded_append (fun j mem => by rwa [List.mem_singleton.1 mem]) (fun _ _ => rfl) (fun _ _ => rfl) s

/-! ### The leases of several domains (R38) -/

theorem live_of_mem_list {s : State} (lists : listLaw s) {d : Managed} {i : SlotId} (mem : i ∈ s.list d) :
    s.liveOn d i = true ∧ s.liveAt i = true :=
  have on := ((lists d).2 i).1 mem
  ⟨on, liveAt_of_liveOn on⟩

/-- R25: a lease is on one domain's list. -/
theorem domain_of_liveOn {s : State} {d e : Managed} {i : SlotId} (h : s.liveOn d i = true) (k : s.liveOn e i = true) :
    d = e := by
  unfold State.liveOn at h k
  cases lease : s.lease i with
  | none => simp [lease] at h
  | some l =>
    simp only [lease, Option.any_some, Bool.and_eq_true, beq_iff_eq] at h k
    exact h.2.symm.trans k.2

theorem endList_eq_withEnded {s : State} (lists : listLaw s) (d : Managed) (cause : EndCause) :
    endAll (s.list d) cause s = withEnded (s.list d) (fun _ => cause) s :=
  endAll_eq_withEnded (lists d).1 (fun _ mem => (live_of_mem_list lists mem).2) cause

/-- An ending on one domain leaves the other domains' lists. -/
theorem list_withEnded_other {s : State} (lists : listLaw s) {d e : Managed} (other : e ≠ d) (cause : SlotId → EndCause) :
    (withEnded (s.list d) cause s).list e = s.list e := by
  rw [list_withEnded]
  refine List.filter_eq_self.2 fun i mem => ?_
  have absent : i ∉ s.list d := fun here =>
    other (domain_of_liveOn (live_of_mem_list lists mem).1 (live_of_mem_list lists here).1)
  simp [absent]

/-- R38: the lists of several domains end, one after another, as one ending. -/
theorem endLists_eq_withEnded {l : List Managed} (nodup : l.Nodup) {s : State} (lists : listLaw s) (cause : EndCause) :
    l.foldl (fun t e => endAll (t.list e) cause t) s = withEnded (l.flatMap s.list) (fun _ => cause) s := by
  induction l generalizing s with
  | nil => exact (withEnded_nil _ s).symm
  | cons e l ih =>
    obtain ⟨absent, nodup⟩ := List.nodup_cons.1 nodup
    have ended : listLaw (withEnded (s.list e) (fun _ => cause) s) := (leasesFrom_withEnded _ _ s).law lists
    have rest : l.flatMap (withEnded (s.list e) (fun _ => cause) s).list = l.flatMap s.list :=
      List.flatMap_congr fun f mem => list_withEnded_other lists (ne_of_mem_of_not_mem mem absent) _
    rw [List.foldl_cons, endList_eq_withEnded lists, ih nodup ended, rest, List.flatMap_cons]
    refine withEnded_append (fun i here there => ?_) (fun _ _ => rfl) (fun _ _ => rfl) s
    obtain ⟨f, mem, there⟩ := List.mem_flatMap.1 there
    have same := domain_of_liveOn (live_of_mem_list lists here).1 (live_of_mem_list lists there).1
    exact absent (same ▸ mem)

end Sys2Proof.Machine
end

section
/-! The cuts of a fault event: reports, weights and ramp queue beside the engines (R77, R78, R83, R84). -/

namespace Sys2Proof.Machine

/-! ### The tree above a domain -/

/-- R1: ancestors have lower numbers. -/
theorem lt_of_mem_ancestors {s : State} {a e : Managed} (h : a ∈ s.ancestors e) : a < e := by
  induction e using WellFoundedLT.induction with
  | ind e ih =>
    cases parent : s.parent? e with
    | none => simp [State.ancestors, Config.treeDepth, State.ancestorsWithin, parent] at h
    | some p =>
      obtain ⟨floor, place⟩ := (parent?_eq_some_iff s e p).1 parent
      rw [ancestors_of_place place, List.mem_cons] at h
      rcases h with rfl | above
      · exact parent_lt place
      · exact (ih p (parent_lt place) above).trans (parent_lt place)

theorem not_mem_own_ancestors (s : State) (d : Managed) : d ∉ s.ancestors d :=
  fun h => lt_irrefl d (lt_of_mem_ancestors h)

/-! ### The cut of several domains -/

/-- R54, R75: the states in which a domain waits to rise. -/
def EngineState.waiting : List EngineState := [.waitParent, .waitBudget]

/-- R84: from s to t the domains of a list, all under a fault, have been cut, and nothing else is touched. -/
structure CutsFrom (s t : State) (l : List Managed) : Prop where
  side : engineSide s t
  engines : ∀ e, t.engine e = if e ∈ l then (s.engine e).cut ((s.record e).map DomainRecord.drain) else s.engine e
  reports : ∀ e, t.report e = if e ∈ l ∧ (s.engine e).state ∈ EngineState.waiting then some .off else s.report e
  units : t.freeUnits = s.freeUnits + (l.map s.heldWeight).sum
  queue : t.rampQueue = s.rampQueue.filter fun e => !(l.contains e && (s.engine e).state == .waitBudget)

theorem CutsFrom.nil (s : State) : CutsFrom s s [] where
  side := .refl s
  engines e := by simp
  reports e := by simp
  units := by simp
  queue := by simp

theorem report_arrived (s : State) (e j : Managed) (level : Level) :
    (arrived e level s).report j = if j = e then some level else s.report j :=
  report_setReport (s.moveEngine e level.engineState none) j e (some level)

/-- A cut that hands no report and leaves the queue: the domain did not wait. -/
theorem cutsFrom_of_standing {s t : State} {e : Managed} (side : engineSide s t)
    (engines : ∀ j, t.engine j =
      if j ∈ [e] then (s.engine j).cut ((s.record j).map DomainRecord.drain) else s.engine j)
    (standing : (s.engine e).state ∉ EngineState.waiting) (reports : t.reports = s.reports)
    (units : t.freeUnits = s.freeUnits + s.heldWeight e) (queue : t.rampQueue = s.rampQueue) : CutsFrom s t [e] where
  side := side
  engines := engines
  reports j := by
    have other : ¬ (j ∈ [e] ∧ (s.engine j).state ∈ EngineState.waiting) := by
      rintro ⟨mem, waits⟩
      rw [List.mem_singleton.1 mem] at waits
      exact standing waits
    rw [if_neg other, State.report, reports]
    rfl
  units := by simpa using units
  queue := by
    rw [queue]
    refine (List.filter_eq_self.2 fun j _ => ?_).symm
    by_cases same : j = e
    · have calm : (s.engine e).state ≠ .waitBudget := fun at_ => standing (by rw [at_]; decide)
      simp [same, calm]
    · simp [same]

/-- A cut that takes a waiting domain to OFF. -/
theorem cutsFrom_of_waiting {s t : State} {e : Managed} (side : engineSide s t)
    (engines : ∀ j, t.engine j =
      if j ∈ [e] then (s.engine j).cut ((s.record j).map DomainRecord.drain) else s.engine j)
    (waits : (s.engine e).state ∈ EngineState.waiting)
    (reports : ∀ j, t.report j = if j = e then some .off else s.report j) (units : t.freeUnits = s.freeUnits)
    (queue : t.rampQueue = s.rampQueue.filter fun j => !(decide (j = e) && (s.engine e).state == .waitBudget)) :
    CutsFrom s t [e] where
  side := side
  engines := engines
  reports j := by
    rw [reports]
    by_cases same : j = e
    · subst j; simp [waits]
    · simp [same]
  units := by
    have none : s.heldWeight e = 0 := by
      simp only [EngineState.waiting, List.mem_cons, List.not_mem_nil, or_false] at waits
      rcases waits with at_ | at_ <;> rw [heldWeight_of_state at_] <;> rfl
    rw [units]
    simp [none]
  queue := by
    rw [queue]
    refine List.filter_congr fun j _ => ?_
    by_cases same : j = e
    · subst j; simp
    · simp [same]

/-- R84: the cut of one domain under a fault. -/
theorem cutsFrom_cutEngine {s : State} (ranges : recordLaw s) {e : Managed}
    (above : ∃ a ∈ s.ancestors e, (s.engine a).state = .fault) : CutsFrom s (cutEngine s e) [e] := by
  have side := engineSide_cutEngine s e
  have engines : ∀ j, (cutEngine s e).engine j =
      if j ∈ [e] then (s.engine j).cut ((s.record j).map DomainRecord.drain) else s.engine j := by
    intro j
    rw [engine_cutEngine ranges above]
    by_cases same : j = e <;> simp [same]
  rcases cutEngine_cases s e with ⟨eq, fallen⟩ | ⟨eq, at_⟩ | ⟨eq, at_⟩ | ⟨eq, rail⟩ <;> rw [eq] at side engines ⊢
  · have standing : (s.engine e).state ∉ EngineState.waiting ∧ (s.engine e).state.holdsWeight = false := by
      revert fallen
      cases (s.engine e).state <;> decide
    have none : s.heldWeight e = 0 := by rw [heldWeight_of_state rfl, if_neg (by simp [standing.2])]
    exact cutsFrom_of_standing side engines standing.1 rfl (by rw [none, Nat.add_zero]) rfl
  · rw [arrive_off_of_fault ranges (faultAtOrAbove_arrived (by rw [at_]; decide) above)] at side engines ⊢
    exact cutsFrom_of_waiting side engines (by rw [at_]; decide) (fun j => report_arrived s e j .off) rfl
      (List.filter_eq_self.2 fun j _ => by simp [at_]).symm
  · have faulted : (arrived e .off (withdraw e s)).faultAtOrAbove e = true :=
      faultAtOrAbove_arrived (s := withdraw e s) (fun fault => absurd (at_.symm.trans fault) (by decide)) above
    rw [arrive_off_of_fault (s := withdraw e s) ranges faulted] at side engines ⊢
    refine cutsFrom_of_waiting side engines (by rw [at_]; decide) (fun j => report_arrived (withdraw e s) e j .off) rfl ?_
    have left : (arrived e .off (withdraw e s)).rampQueue = s.rampQueue.filter fun j => j ≠ e := rfl
    rw [left]
    exact List.filter_congr fun j _ => by simp [at_]
  · have standing : (s.engine e).state ∉ EngineState.waiting := by
      revert rail
      cases (s.engine e).state <;> decide
    exact cutsFrom_of_standing side engines standing rfl rfl rfl

/-- R84: a cut and then the cuts of other domains. -/
theorem CutsFrom.cons {s t u : State} {e : Managed} {l : List Managed} (first : CutsFrom s t [e]) (later : CutsFrom t u l)
    (absent : e ∉ l) : CutsFrom s u (e :: l) := by
  have kept : ∀ j ∈ l, t.engine j = s.engine j := fun j mem => by
    rw [first.engines, if_neg (by simpa using ne_of_mem_of_not_mem mem absent)]
  have records := first.side.record
  refine ⟨first.side.trans later.side, fun j => ?_, fun j => ?_, ?_, ?_⟩
  · rw [later.engines, records]
    by_cases mem : j ∈ l
    · simp [mem, kept j mem]
    · rw [if_neg mem, first.engines]
      simp [mem]
  · rw [later.reports]
    by_cases mem : j ∈ l
    · have other : j ≠ e := ne_of_mem_of_not_mem mem absent
      simp [mem, kept j mem, first.reports, other]
    · simp [mem, first.reports]
  · have weights : l.map t.heldWeight = l.map s.heldWeight := List.map_congr_left fun j mem => by
      unfold State.heldWeight
      rw [kept j mem, weight_congr records]
    rw [later.units, first.units, weights]
    simp [Nat.add_assoc]
  · rw [later.queue, first.queue, List.filter_filter]
    refine List.filter_congr fun j _ => ?_
    by_cases mem : j ∈ l
    · have other : j ≠ e := ne_of_mem_of_not_mem mem absent
      simp [mem, kept j mem, other]
    · simp [mem]

/-- R84: several domains under faults are cut, each once. -/
theorem cutsFrom_foldl {l : List Managed} (nodup : l.Nodup) {s : State} (ranges : recordLaw s)
    (above : ∀ e ∈ l, ∃ a ∈ s.ancestors e, (s.engine a).state = .fault) : CutsFrom s (l.foldl cutEngine s) l := by
  induction l generalizing s with
  | nil => exact .nil s
  | cons e l ih =>
    obtain ⟨absent, nodup⟩ := List.nodup_cons.1 nodup
    have first := cutsFrom_cutEngine ranges (above e List.mem_cons_self)
    have records := first.side.record
    refine first.cons (ih nodup (by unfold recordLaw; rw [records]; exact ranges) fun f mem => ?_) absent
    obtain ⟨a, up, fault⟩ := above f (List.mem_cons_of_mem e mem)
    refine ⟨a, by rwa [ancestors_congr records], ?_⟩
    rw [first.engines]
    split
    · exact (cut_fault_iff _ _).2 fault
    · exact fault

/-! ### The failing domain and its descendants -/

/-- R83, R84: what the failing of d and the cuts of its descendants leave. -/
theorem cutsFrom_cutState {s : State} (ranges : recordLaw s) (d : Managed) (cause : FaultCause) :
    CutsFrom (failEngine d cause s) (cutState d cause s) (s.descendants d) := by
  have records : (failEngine d cause s).record = s.record := (engineSide_failEngine d cause s).record
  refine cutsFrom_foldl (descendants_nodup s d) (by unfold recordLaw; rw [records]; exact ranges) fun e mem => ?_
  refine ⟨d, by rw [ancestors_congr records]; exact (mem_descendants s d e).1 mem, ?_⟩
  rw [engine_failEngine, if_pos rfl]

/-- R84: the failing leaves the engines of the descendants to the cuts. -/
theorem engine_failEngine_below {s : State} {d e : Managed} (below : s.below d e = true) (cause : FaultCause) :
    (failEngine d cause s).engine e = s.engine e := by
  have other : e ≠ d := fun eq => not_mem_own_ancestors s d ((below_iff s d d).1 (eq ▸ below))
  rw [engine_failEngine, if_neg other]

theorem mem_descendants_iff_below (s : State) (d e : Managed) : e ∈ s.descendants d ↔ s.below d e = true :=
  (mem_descendants s d e).trans (below_iff s d e).symm

/-- R83: the failing domain's engine. -/
theorem engine_cutState_self {s : State} (ranges : recordLaw s) {d : Managed} {r : DomainRecord}
    (record : s.record d = some r) (cause : FaultCause) : (cutState d cause s).engine d =
      { state := .fault, timer := some r.drain, cause := some cause, drainComplete := false } := by
  rw [engine_cutState ranges, if_neg (not_mem_own_ancestors s d), engine_failEngine, if_pos rfl, record]
  rfl

/-- R84: every other engine. -/
theorem engine_cutState_other {s : State} (ranges : recordLaw s) {d e : Managed} (other : e ≠ d) (cause : FaultCause) :
    (cutState d cause s).engine e =
      if s.below d e = true then (s.engine e).cut ((s.record e).map DomainRecord.drain) else s.engine e := by
  rw [engine_cutState ranges, engine_failEngine, if_neg other]
  simp only [below_iff]

theorem report_cutState {s : State} (ranges : recordLaw s) (d e : Managed) (cause : FaultCause) :
    (cutState d cause s).report e = if s.below d e = true ∧ (s.engine e).state ∈ EngineState.waiting then some .off
      else s.report e := by
  rw [(cutsFrom_cutState ranges d cause).reports]
  simp only [mem_descendants_iff_below]
  by_cases below : s.below d e = true
  · rw [engine_failEngine_below below]
    rfl
  · rw [if_neg fun h => below h.1, if_neg fun h => below h.1]
    rfl

/-- R77, R83, R84: the weights held in the subtree return. -/
theorem freeUnits_cutState {s : State} (ranges : recordLaw s) (d : Managed) (cause : FaultCause) :
    (cutState d cause s).freeUnits = s.freeUnits + ((d :: s.descendants d).map s.heldWeight).sum := by
  have weights : (s.descendants d).map (failEngine d cause s).heldWeight = (s.descendants d).map s.heldWeight :=
    List.map_congr_left fun e mem => by
      unfold State.heldWeight
      rw [engine_failEngine_below ((mem_descendants_iff_below s d e).1 mem),
        weight_congr (engineSide_failEngine d cause s).record]
  have own : (failEngine d cause s).freeUnits = s.freeUnits + s.heldWeight d := rfl
  rw [(cutsFrom_cutState ranges d cause).units, weights, own, List.map_cons, List.sum_cons, Nat.add_assoc]

/-- R78, R84: the descendants that wait in the ramp queue leave it. -/
theorem rampQueue_cutState {s : State} (ranges : recordLaw s) (d : Managed) (cause : FaultCause) :
    (cutState d cause s).rampQueue =
      s.rampQueue.filter fun e => !(s.below d e && (s.engine e).state == .waitBudget) := by
  rw [(cutsFrom_cutState ranges d cause).queue]
  refine List.filter_congr fun e _ => ?_
  have listed : (s.descendants d).contains e = s.below d e := by
    rw [Bool.eq_iff_iff, List.contains_iff_mem, mem_descendants_iff_below]
  rw [listed]
  cases below : s.below d e with
  | true => rw [engine_failEngine_below below]
  | false => rfl

end Sys2Proof.Machine
end

section
/-! A fault event taken whole: engines, weights, leases, notices and pins (R38, R82 to R87). -/

namespace Sys2Proof.Machine

/-! ### The leases and notices -/

theorem engineSide.lists {s t : State} (h : engineSide s t) (lists : listLaw s) : listLaw t := by
  obtain ⟨_, _, _, _, rfl⟩ := h
  exact lists

/-- R38: the order and the causes with which a fault event ends leases. -/
theorem endings_eq_withEnded {s : State} (lists : listLaw s) (d : Managed) :
    (s.descendants d).foldl (fun t e => endAll (t.list e) .parentFault t) (endAll (s.list d) .fault s) =
      withEnded (s.faultOrder d) (s.faultEndCause d) s := by
  have ended : listLaw (withEnded (s.list d) (fun _ => .fault) s) := (leasesFrom_withEnded _ _ s).law lists
  have below : ∀ e ∈ s.descendants d, e ≠ d := fun e mem eq =>
    not_mem_own_ancestors s d ((mem_descendants s d d).1 (eq ▸ mem))
  have rest : (s.descendants d).flatMap (withEnded (s.list d) (fun _ => .fault) s).list = (s.descendants d).flatMap s.list :=
    List.flatMap_congr fun e mem => list_withEnded_other lists (below e mem) _
  have off : ∀ i ∈ (s.descendants d).flatMap s.list, s.liveOn d i = false := by
    intro i mem
    obtain ⟨e, desc, listed⟩ := List.mem_flatMap.1 mem
    exact Bool.eq_false_iff.2 fun on => below e desc (domain_of_liveOn (live_of_mem_list lists listed).1 on)
  rw [endList_eq_withEnded lists, endLists_eq_withEnded (descendants_nodup s d) ended, rest]
  refine withEnded_append (fun i here there => ?_) (fun i mem => ?_) (fun i mem => ?_) s
  · have on := (live_of_mem_list lists here).1
    rw [off i there] at on
    cases on
  · simp only [State.faultEndCause, if_pos (live_of_mem_list lists mem).1]
  · simp [State.faultEndCause, off i mem]

/-- R83: the fault event, from the cut state on. -/
theorem faultEvent_eq {s : State} (lists : listLaw s) (d : Managed) (cause : FaultCause) :
    faultEvent d cause s =
      (withEnded (s.faultOrder d) (s.faultEndCause d) (cutState d cause s)).post 0 (.fault d cause 1) := by
  have ended := endings_eq_withEnded ((engineSide_cutState d cause s).lists lists) d
  have records := (engineSide_cutState d cause s).record
  have same : (cutState d cause s).descendants d = s.descendants d := by
    unfold State.descendants State.below
    rw [ancestors_congr records]
  have order : (cutState d cause s).faultOrder d = s.faultOrder d ∧
      (cutState d cause s).faultEndCause d = s.faultEndCause d := by
    unfold State.faultOrder
    rw [same]
    obtain ⟨_, _, _, _, eq⟩ := engineSide_cutState d cause s
    rw [eq]
    exact ⟨rfl, rfl⟩
  rw [order.1, order.2, same] at ended
  rw [← ended]
  rfl

/-- R36: an ending reads and writes the lease table alone. -/
theorem withEnded_engineSide {s t : State} (h : engineSide s t) (order : List SlotId) (cause : SlotId → EndCause) :
    withEnded order cause t = { withEnded order cause s with
      engines := t.engines, reports := t.reports, freeUnits := t.freeUnits, rampQueue := t.rampQueue } := by
  obtain ⟨_, _, _, _, rfl⟩ := h
  rfl

/-- R126: a post to A0, the supervisor, over other engines. -/
theorem post_supervisor (n : Notice) (u : State) (engines : Vector Engine 15) (reports : Vector (Option Level) 15)
    (freeUnits : Nat) (rampQueue : List Managed) :
    State.post 0 n { u with engines := engines, reports := reports, freeUnits := freeUnits, rampQueue := rampQueue } =
      { u with
        engines := engines, reports := reports, freeUnits := freeUnits, rampQueue := rampQueue
        queues := u.queues.set 0 (postTo n (u.queue 0)) } := rfl

/-- R83, R86: what a fault event leaves, before the event ends. -/
theorem faultEvent_frame {s : State} (ranges : recordLaw s) (lists : listLaw s) (d : Managed) (cause : FaultCause) :
    faultEvent d cause s =
      let u := withEnded (s.faultOrder d) (s.faultEndCause d) s
      { u with
        engines := (cutState d cause s).engines
        reports := (cutState d cause s).reports
        freeUnits := s.freeUnits + ((d :: s.descendants d).map s.heldWeight).sum
        rampQueue := s.rampQueue.filter fun e => !(s.below d e && (s.engine e).state == .waitBudget)
        queues := u.queues.set 0 (postTo (.fault d cause 1) (u.queue 0)) } := by
  rw [faultEvent_eq lists, withEnded_engineSide (engineSide_cutState d cause s), post_supervisor, freeUnits_cutState ranges,
    rampQueue_cutState ranges]

/-! ### The end of the event -/

/-- R182: an event that leaves a domain up does not end STOPPING; the baselines and the pins follow the engines. -/
theorem closeEvent_of_up (order : List Managed) {old new : State} {d : Managed} (up : (new.engine d).down = false) :
    closeEvent order old new = { new with
      wakes := Vector.ofFn (refreshedWake new (closeEvent order old new))
      pinLog := new.pinLog ++ pinChanges order old (closeEvent order old new) } := by
  have standing : new.allDown = false := by
    rw [Bool.eq_false_iff]
    intro down
    rw [(allDown_iff new).1 down d] at up
    cases up
  have ended : endStopping new = new := if_neg fun stopping => by
    rw [standing] at stopping
    cases stopping.2
  have active : ∀ k, (closeEvent order old new).detectorActive k = new.detectorActive k := by
    intro k
    have fields := refreshDetector_fields new k
    have here : (closeEvent order old new).wake k = refreshDetector new k := by
      rw [closeEvent_eq, ended]; simp [State.wake]
    refine detectorActive_congr ?_ (engine_closeEvent order old new) (by rw [here, fields.1]) (by rw [here, fields.2])
    rw [closeEvent_eq, standing]
    simp
  have wakes : refreshDetector new = refreshedWake new (closeEvent order old new) := by
    funext k
    unfold refreshDetector refreshedWake
    rw [active]
    split <;> rfl
  have pins : pinChanges order old new = pinChanges order old (closeEvent order old new) :=
    pinChanges_congr (engines_closeEvent order old new).symm (records_closeEvent order old new).symm
  conv_lhs => rw [closeEvent_eq, ended, wakes, pins, standing]
  simp

/-! ### The whole event -/

/-- From s some leases end, then engines, arbiter and queues take their new values, and the event ends: all else stays. -/
theorem whole_of_parts {s u v t : State} {engines : Vector Engine 15} {reports : Vector (Option Level) 15} {freeUnits : Nat}
    {rampQueue : List Managed} {queues : Vector (List Notice) 4} {pins : List PinChange} (ended : leaseSide s u)
    (event : v = { u with
      engines := engines, reports := reports, freeUnits := freeUnits, rampQueue := rampQueue, queues := queues })
    (closed : t = { v with wakes := Vector.ofFn (refreshedWake v t), pinLog := v.pinLog ++ pins }) :
    t = { s with
      engines := t.engines, reports := t.reports, slots := u.slots, lists := u.lists, freeUnits := freeUnits
      rampQueue := rampQueue, windows := u.windows, wakes := Vector.ofFn (refreshedWake u t), queues := queues
      pinLog := s.pinLog ++ pins } := by
  have wakes : refreshedWake v t = refreshedWake u t := by rw [event]; rfl
  rw [wakes] at closed
  have enginesKept := congrArg State.engines closed
  have reportsKept := congrArg State.reports closed
  rw [enginesKept, reportsKept]
  refine closed.trans ?_
  obtain ⟨⟨_, _, _, _, _, rfl⟩, _⟩ := ended
  subst event
  rfl

theorem report_takeFault (d e : Managed) (cause : FaultCause) (s : State) :
    (takeFault d cause s).report e = (cutState d cause s).report e := by
  have closed : (takeFault d cause s).reports = (faultEvent d cause s).reports := by rw [takeFault, closeEvent_eq]
  have event : (faultEvent d cause s).reports = (cutState d cause s).reports := by
    obtain ⟨⟨_, _, _, _, _, eq⟩, _⟩ := (leases_after_cut d cause s).side
    rw [eq]
    rfl
  rw [State.report, closed, event]
  rfl

theorem engine_takeFault (d : Managed) (cause : FaultCause) (s : State) :
    (takeFault d cause s).engine = (cutState d cause s).engine :=
  (engine_closeEvent _ _ _).trans (engine_faultEvent d cause s)

/-- R82 to R87: the fault event, taken whole. -/
theorem faultOutcome_takeFault {s : State} (ranges : recordLaw s) (lists : listLaw s) {d : Managed} {r : DomainRecord}
    (record : s.record d = some r) (cause : FaultCause) : faultOutcome s (takeFault d cause s) d r cause := by
  have own := engine_cutState_self ranges record cause
  have up : ((faultEvent d cause s).engine d).down = false := by rw [engine_faultEvent, own]; rfl
  refine ⟨by rw [engine_takeFault, own], fun e other => ?_, fun e => ?_, ?_⟩
  · rw [engine_takeFault, engine_cutState_other ranges other]
  · rw [report_takeFault, report_cutState ranges]
    rfl
  · exact whole_of_parts (leaseSide_withEnded _ _ s) (faultEvent_frame ranges lists d cause)
      (closeEvent_of_up descendingManaged (old := s) up)

/-! ### The five causes -/

theorem exec_pgoodDeasserted {s : State} {d : Managed} {r : DomainRecord} (running : s.resetHeld = false)
    (record : s.record d = some r) (supervised : (s.engine d).state.supervisesPgood = true) :
    exec (.pgoodDeasserted d) s = .next (takeFault d .pgoodLost (s.setPgood d false)) := by
  have run : exec (.pgoodDeasserted d) s = .next
      (if s.resetHeld = true then s.setPgood d false else losePgood d (s.setPgood d false)) := rfl
  have sampled : (s.setPgood d false).pgoodSampled d = true := by simp [State.pgoodSampled, record]
  rw [run, if_neg (by simp [running]), losePgood, if_pos ⟨supervised, sampled⟩]

theorem exec_ckokDeasserted {s : State} {d : Managed} {r : DomainRecord} (running : s.resetHeld = false)
    (record : s.record d = some r) (supervised : (s.engine d).state.supervisesCkok = true)
    (above : Level.retain.num < r.maxLevel.num) :
    exec (.ckokDeasserted d) s = .next (takeFault d .clockLost (s.setCkok d false)) := by
  have run : exec (.ckokDeasserted d) s = .next
      (if s.resetHeld = true then s.setCkok d false else loseCkok d (s.setCkok d false)) := rfl
  have sampled : (s.setCkok d false).ckokSampled d = true := by simp [State.ckokSampled, record, above]
  rw [run, if_neg (by simp [running]), loseCkok, if_pos ⟨supervised, sampled⟩]

/-- R51: an expiry that is due is taken. -/
theorem exec_expiry {c : Instr} {s : State} {d : Managed} {st : EngineState} {effect : State → State}
    (run : exec c s = .next (onExpiry st d effect s)) (running : s.resetHeld = false) (at_ : (s.engine d).state = st)
    (expired : (s.engine d).timer = some 0) : exec c s = .next (effect s) := by
  rw [run, onExpiry, if_pos ⟨running, by simp [State.expiryDue, at_, expired]⟩]

/-- R64: the drain-end check with PGOOD asserted. -/
theorem endDrain_powered {s : State} {d : Managed} {r : DomainRecord} (record : s.record d = some r)
    (powered : s.pgood[d] = true) : endDrain d s = takeFault d .stuckRail s := by
  have seen : s.pgoodSeen d = true := (pgoodSeen_of_defined (by simp [record])).trans powered
  rw [endDrain, if_pos seen]

/-- Settles O43: each cause takes the fault event in the state in which it is met, which is whole by
`faultOutcome_takeFault`. -/
theorem faultEventsAreWhole : Obligations.FaultEventsAreWhole := by
  intro s d r running ranges lists record
  refine ⟨fun supervised => ?_, fun supervised above => ?_, fun at_ expired => ?_, fun at_ expired => ?_,
    fun at_ expired powered => ?_⟩
  · exact ⟨_, exec_pgoodDeasserted running record supervised,
      faultOutcome_takeFault (s := s.setPgood d false) ranges lists record .pgoodLost⟩
  · exact ⟨_, exec_ckokDeasserted running record supervised above,
      faultOutcome_takeFault (s := s.setCkok d false) ranges lists record .clockLost⟩
  · exact ⟨_, exec_expiry rfl running at_ expired, faultOutcome_takeFault ranges lists record .riseTimeout⟩
  · exact ⟨_, exec_expiry rfl running at_ expired, faultOutcome_takeFault ranges lists record .clockTimeout⟩
  · have taken := exec_expiry (c := .drainEnd d) rfl running at_ expired
    rw [endDrain_powered record powered] at taken
    exact ⟨_, taken, faultOutcome_takeFault ranges lists record .stuckRail⟩

end Sys2Proof.Machine
end

section
/-! The window table and the tap port: what SET_WINDOW and CLEAR_WINDOW write, and the leases that a tap word loads
(R98 to R107, R175, R176, R201). -/

namespace Sys2Proof.Machine

/-! ### A request of the supervisor -/

/-- R143, R190: every request's own body length fits a frame. -/
theorem bodyLength_le (r : Request) : r.bodyLength ≤ 60 := by cases r <;> decide

/-- R139, R194: an executed request of A0 that passes the early checks is answered as its owner says. -/
theorem frameEnd_supervisor {s : State} {seq : Byte} {r : Request} {body : List Byte}
    (own : Agent → List Byte → State → State × Reply) (executes : s.executes 0 seq = true)
    (admitted : r.admission s.partState = none) (length : body.length = r.bodyLength) :
    frameEnd (checked r own) 0 seq body s =
      answer 0 seq (own 0 body s).2.status (own 0 body s).2.body (own 0 body s).1 := by
  have passes : checked r own 0 body s = own 0 body s := checked_taken own (fun _ => rfl) admitted length
  rw [frameEnd_executes _ executes (length ▸ bodyLength_le r), passes]

/-! ### SET_WINDOW and CLEAR_WINDOW -/

/-- R175: the range pass of a SET_WINDOW body whose length fits its five bytes. -/
theorem decodeSetWindow_body (w : WindowId) (base : Address) {length : Nat} (fits : length < 256 ^ 5) :
    decodeSetWindow ([byteOf w.val] ++ bigEndian 4 base.toNat ++ bigEndian 5 length) =
      if 1 ≤ length ∧ base.toNat + length ≤ 4294967296 then some (w, { base := base, length := length }) else none := by
  have window : byteAt ([byteOf w.val] ++ bigEndian 4 base.toNat ++ bigEndian 5 length) 0 = byteOf w.val := rfl
  have baseField : fieldAt ([byteOf w.val] ++ bigEndian 4 base.toNat ++ bigEndian 5 length) 1 4 = base.toNat := by
    rw [List.append_assoc]
    exact fieldAt_bigEndian [byteOf w.val] (bigEndian 5 length) 4 base.toNat base.isLt
  have lengthField : fieldAt ([byteOf w.val] ++ bigEndian 4 base.toNat ++ bigEndian 5 length) 5 5 = length := by
    simpa using fieldAt_bigEndian ([byteOf w.val] ++ bigEndian 4 base.toNat) [] 5 length fits
  simp only [decodeSetWindow, window, decodeWindow_byteOf, baseField, lengthField, Config.addressSpace,
    BitVec.ofNat_toNat, BitVec.setWidth_eq]

/-- R107, R175: SET_WINDOW stores a range that lies in the address space, and keeps the users count. -/
theorem doSetWindow_body (w : WindowId) (base : Address) {length : Nat} (fits : length < 256 ^ 5) (s : State) :
    doSetWindow 0 ([byteOf w.val] ++ bigEndian 4 base.toNat ++ bigEndian 5 length) s =
      if 1 ≤ length ∧ base.toNat + length ≤ 4294967296 then
        accept [byteOf (s.window w).users]
          (s.setWindow w { range := some { base := base, length := length }, users := (s.window w).users })
      else refuse .badValue s := by
  rw [doSetWindow, decodeSetWindow_body w base fits]
  by_cases inside : 1 ≤ length ∧ base.toNat + length ≤ 4294967296
  · rw [if_pos inside, if_pos inside]
  · rw [if_neg inside, if_neg inside]

/-- R107, R176: CLEAR_WINDOW makes a window without users undefined. -/
theorem doClearWindow_body (w : WindowId) (s : State) :
    doClearWindow 0 [byteOf w.val] s =
      if 0 < (s.window w).users then refuseWith .windowInUse [byteOf (s.window w).users] s
      else accept [] (s.setWindow w { range := none, users := (s.window w).users }) := by
  have byte : byteAt [byteOf w.val] 0 = byteOf w.val := rfl
  simp only [doClearWindow, byte, decodeWindow_byteOf]

/-- Settles O31: outside STOPPING both requests pass the early checks, and `doSetWindow_body` and `doClearWindow_body`
give what their owners answer. -/
theorem windowsAreWrittenAndCleared : Obligations.WindowsAreWrittenAndCleared := by
  intro s seq w base length executes running fits
  have runSet : ∀ body, exec (.setWindow 0 seq body) s = .next (frameEnd (checked .setWindow doSetWindow) 0 seq body s) :=
    fun _ => rfl
  have runClear : ∀ body,
      exec (.clearWindow 0 seq body) s = .next (frameEnd (checked .clearWindow doClearWindow) 0 seq body s) := fun _ => rfl
  have setAdmitted : Request.setWindow.admission s.partState = none := if_neg running
  have clearAdmitted : Request.clearWindow.admission s.partState = none := if_neg running
  refine ⟨?_, ?_⟩
  · rw [runSet, frameEnd_supervisor doSetWindow executes setAdmitted (by simp [Request.bodyLength]),
      doSetWindow_body w base fits]
    split_ifs <;> rfl
  · rw [runClear, frameEnd_supervisor doClearWindow executes clearAdmitted rfl, doClearWindow_body]
    split_ifs <;> rfl

/-! ### The bits of a tap word -/

/-- R98: the leading bits of a word, the most significant first, are the number that they lead. -/
theorem bitsValue_leading {n : Nat} (a : BitVec n) {k : Nat} (le : k ≤ n) :
    bitsValue (List.ofFn fun i : Fin k => a.getMsbD i.val) = a.toNat / 2 ^ (n - k) := by
  induction k with
  | zero => simp [bitsValue, Nat.div_eq_of_lt a.isLt]
  | succ k ih =>
    have wider : n - k = n - (k + 1) + 1 := by omega
    have place : a.getMsbD k = a.toNat.testBit (n - (k + 1)) := by
      have inside : k < n := le
      have same : n - 1 - k = n - (k + 1) := by omega
      simp [BitVec.getMsbD, inside, same, BitVec.getLsbD]
    have leading := ih (by omega)
    simp only [bitsValue] at leading ⊢
    rw [List.ofFn_succ', List.concat_eq_append, List.foldl_append]
    simp only [Fin.val_castSucc, Fin.val_last, List.foldl_cons, List.foldl_nil]
    rw [leading, place, wider, Nat.pow_succ, ← Nat.div_div_eq_div_mul, Nat.toNat_testBit]
    omega

/-- R98, R201: a word of 32 address bits and odd parity carries its address. -/
theorem tapAddress_wordBits {a : Address} {parity : Bool} (odd : (wordBits a parity).count true % 2 = 1) :
    tapAddress (wordBits a parity) = some a := by
  have size : (wordBits a parity).length = Config.tapBits := by simp [wordBits, Config.tapBits]
  have leading : (wordBits a parity).take 32 = List.ofFn fun i : Fin 32 => a.getMsbD i.val :=
    List.take_left' List.length_ofFn
  have value : bitsValue ((wordBits a parity).take 32) = a.toNat := by
    rw [leading, bitsValue_leading a le_rfl]
    simp
  rw [tapAddress, if_pos ⟨size, odd⟩, value, BitVec.ofNat_toNat, BitVec.setWidth_eq]

/-- R99: a word of another length, or with an even number of ones, is discarded. -/
theorem tapAddress_none {bits : List Bool} (h : bits.length ≠ 33 ∨ bits.count true % 2 = 0) : tapAddress bits = none :=
  if_neg fun ⟨size, odd⟩ => h.elim (fun other => other size) fun even => by omega

/-! ### Reload claims (R104) -/

/-- R104: a lease after the reload claim for a window: loaded when it names that window. -/
def Lease.claimed (w : WindowId) (l : Lease) : Lease := if l.term.window? = some w then l.reload else l

/-- R104: a slot after the reload claim for a window. -/
def Slot.claimed (w : WindowId) (x : Slot) : Slot := { x with lease := x.lease.map (Lease.claimed w) }

/-- R106: a lease that is loaded twice with its own time is loaded once. -/
theorem reload_of_reload (l : Lease) : l.reload.reload = l.reload := by
  obtain ⟨holder, domain, term, wanted, granted, state, tag, origin⟩ := l
  cases term with
  | standing => cases state <;> rfl
  | _ => simp only [Lease.reload, Term.time, load_load]

/-- The claims for several windows load a lease when one of them is its own. -/
theorem foldl_claimed (ws : List WindowId) (l : Lease) :
    ws.foldl (fun l w => l.claimed w) l = if ∃ w ∈ ws, l.term.window? = some w then l.reload else l := by
  induction ws generalizing l with
  | nil => simp
  | cons w ws ih =>
    rw [List.foldl_cons, ih]
    by_cases own : l.term.window? = some w
    · rw [Lease.claimed, if_pos own, reload_of_reload, ite_self, if_pos ⟨w, List.mem_cons_self, own⟩]
    · simp [Lease.claimed, own]

theorem reloadAt_eq (w : WindowId) (s : State) (i : SlotId) :
    reloadAt w s i = s.setSlot i ((s.slot i).claimed w) := by
  have same : s.setSlot i (s.slot i) = s := by simp [State.setSlot, State.slot]
  have kept : s = s.setSlot i { s.slot i with lease := s.lease i } := same.symm
  have slot : (s.slot i).claimed w = { s.slot i with lease := (s.lease i).map (Lease.claimed w) } := rfl
  rw [slot]
  unfold reloadAt
  split
  · rename_i l lease
    rw [lease, Option.map_some, Lease.claimed]
    split
    · rfl
    · rwa [lease] at kept
  · rename_i free
    rw [free] at kept ⊢
    exact kept

/-- R104: the reload claim at several slots. -/
theorem foldl_reloadAt (w : WindowId) {l : List SlotId} (nodup : l.Nodup) (s : State) :
    l.foldl (reloadAt w) s =
      { s with slots := Vector.ofFn fun i => if i ∈ l then (s.slot i).claimed w else s.slot i } := by
  induction l generalizing s with
  | nil =>
    have : (Vector.ofFn fun i => s.slot i) = s.slots := by ext i h : 1; simp [State.slot]
    simp [this]
  | cons j l ih =>
    obtain ⟨absent, nodup⟩ := List.nodup_cons.1 nodup
    have slots : (fun i => if i ∈ l then ((reloadAt w s j).slot i).claimed w else (reloadAt w s j).slot i) =
        fun i => if i ∈ j :: l then (s.slot i).claimed w else s.slot i := by
      funext i
      rw [reloadAt_eq, slot_setSlot]
      by_cases h : i = j
      · subst h; simp [absent]
      · simp [h]
    rw [List.foldl_cons, ih nodup, slots, reloadAt_eq]
    rfl

/-- R104: the reload claim for a window loads every lease that names it, and nothing else changes. -/
theorem reloadClaim_eq (w : WindowId) (s : State) : reloadClaim w s = { s with slots := s.slots.map (Slot.claimed w) } := by
  have slots : (Vector.ofFn fun i => if i ∈ allSlots then (s.slot i).claimed w else s.slot i) =
      s.slots.map (Slot.claimed w) := by
    ext i h : 1
    simp [mem_allSlots, State.slot]
  rw [reloadClaim, foldl_reloadAt w (by decide), slots]

/-- R103, R104: the reload claims for several windows, one after another. -/
theorem foldl_reloadClaim (ws : List WindowId) (s : State) :
    ws.foldl (fun t w => reloadClaim w t) s =
      { s with slots := s.slots.map fun x =>
          { x with lease := x.lease.map fun l => ws.foldl (fun l w => l.claimed w) l } } := by
  induction ws generalizing s with
  | nil => simp
  | cons w ws ih =>
    rw [List.foldl_cons, ih, reloadClaim_eq]
    simp [Slot.claimed, Function.comp_def]

/-- R103: the windows that an address matches. -/
theorem mem_matching (a : Address) (s : State) (w : WindowId) :
    w ∈ allWindows.filter (s.matchesWindow a) ↔ s.matchesWindow a w = true := by
  have all : w ∈ allWindows := by revert w; decide
  simp [all]

/-- R103, R104: a slot under `withReloads`, by the claims of the windows that the address matches. -/
theorem slots_withReloads (a : Address) (s : State) :
    (withReloads a s).slots = s.slots.map fun x =>
      { x with lease := x.lease.map fun l => (allWindows.filter (s.matchesWindow a)).foldl (fun l w => l.claimed w) l } := by
  refine Vector.ext fun i hi => ?_
  simp only [foldl_claimed, mem_matching, withReloads, State.slot, State.lease, Vector.getElem_ofFn, Vector.getElem_map,
    Fin.getElem_fin]
  congr 2
  funext l
  obtain ⟨holder, domain, term, wanted, granted, state, tag, origin⟩ := l
  cases term <;> simp [Term.window?, Lease.reload, Term.time]

/-- R103, R104: an address loads the watched leases whose windows it matches. -/
theorem matchAddress_eq_withReloads (a : Address) (s : State) : matchAddress a s = withReloads a s := by
  rw [matchAddress, foldl_reloadClaim, ← slots_withReloads]
  rfl

/-! ### The arrival of a word -/

/-- Settles O36: a good word carries its address by `tapAddress_wordBits`, whose claims are `withReloads`; a word that is
discarded, or that the receiver or the part state does not take, leaves the state. -/
theorem tapWordReloadsWatchedLeases : Obligations.TapWordReloadsWatchedLeases := by
  have run : ∀ bits s, exec (.tapWord bits) s = .next (takeTapWord bits s) := fun _ _ => rfl
  refine ⟨fun s a parity released ready running odd => ?_, fun s bits discarded => ?_⟩
  · have takes : ¬ (s.resetHeld = true ∨ s.tapAwaits = true ∨ s.partState ≠ .run) := by simp [released, ready, running]
    rw [run, takeTapWord, if_neg takes, tapAddress_wordBits odd]
    exact congrArg _ (matchAddress_eq_withReloads a s)
  · rw [run, takeTapWord]
    split
    · rfl
    · rename_i takes
      have bad : bits.length ≠ 33 ∨ bits.count true % 2 = 0 := by tauto
      rw [tapAddress_none bad]

end Sys2Proof.Machine
end

section
/-! The wake lines: what a line event does at its detector, and the rows by which a claim is settled
(R28, R114 to R118, R129). -/

namespace Sys2Proof.Machine

/-! ### Line events -/

/-- R114: the detector of line k has taken a level as its baseline, the line being at it. -/
def sampledLine (k : LineId) (level : Bool) (s : State) : State :=
  (s.setLine k level).setWake k { s.wake k with baseline := some level }

@[simp] theorem wake_sampledLine (k : LineId) (level : Bool) (s : State) :
    (sampledLine k level s).wake k = { s.wake k with baseline := some level } := by
  simp [sampledLine]

@[simp] theorem detectorActive_setLine (j k : LineId) (level : Bool) (s : State) :
    (s.setLine j level).detectorActive k = s.detectorActive k := rfl

theorem exec_lineEvent {s : State} (k : LineId) (level : Bool) (released : s.resetHeld = false) :
    exec (.lineEvent k level) s = .next (takeEdge k level (s.setLine k level)) := by
  change Host.Outcome.next (if s.resetHeld = true then _ else _) = _
  rw [if_neg (by simp [released])]

/-- R169: while a reset is held a line takes its level, and that is all. -/
theorem exec_lineEvent_held {s : State} (k : LineId) (level : Bool) (held : s.resetHeld = true) :
    exec (.lineEvent k level) s = .next (s.setLine k level) := by
  change Host.Outcome.next (if s.resetHeld = true then _ else _) = _
  rw [if_pos held]

/-- R114: what is no edge. -/
theorem takeEdge_of_no_edge {s : State} {k : LineId} {level : Bool}
    (still : s.detectorActive k = false ∨ (s.wake k).baseline = none ∨ (s.wake k).baseline = some level) :
    takeEdge k level s = s := by
  unfold takeEdge
  split
  · rename_i base baseline
    refine if_neg fun ⟨active, edge⟩ => ?_
    rcases still with inactive | absent | same
    · simp [inactive] at active
    · simp [absent] at baseline
    · exact edge (Option.some.inj (baseline.symm.trans same))
  · rfl

/-- R114: an edge at an active detector is its new baseline, and a claim if the record selects it. -/
theorem takeEdge_of_edge {s : State} {k : LineId} {level : Bool} (active : s.detectorActive k = true)
    (baseline : (s.wake k).baseline = some (!level)) :
    takeEdge k level (s.setLine k level) =
      if (s.wake k).edge.selects level = true then wakeClaim k (sampledLine k level s) else sampledLine k level s := by
  unfold takeEdge
  simp only [wake_setLine, baseline, detectorActive_setLine, active, sampledLine]
  exact if_pos (by simp)

/-- R111: the edges that a record selects. -/
theorem selects_iff (edge : Edge) (level : Bool) :
    edge.selects level = true ↔ edge = .both ∨ edge = if level then .rise else .fall := by
  cases edge <;> cases level <;> decide

theorem not_selects_of_other {edge : Edge} {level : Bool} (other : edge = if level then .fall else .rise) :
    ¬ edge.selects level = true := by
  subst other
  cases level <;> decide

/-- Settles O37: with a held reset or no edge `takeEdge` is not run or leaves the state, and an edge that the record does not
select is the new baseline alone. -/
theorem lineEventsFollowTheBaseline : Obligations.LineEventsFollowTheBaseline := by
  refine fun s k level => ⟨fun noEdge => ?_, fun released active baseline other => ?_⟩
  · by_cases held : s.resetHeld = true
    · exact exec_lineEvent_held k level held
    · rw [exec_lineEvent k level (Bool.eq_false_iff.2 held)]
      exact congrArg _ (takeEdge_of_no_edge (s := s.setLine k level) (noEdge.resolve_left held))
  · rw [exec_lineEvent k level released, takeEdge_of_edge active baseline, if_neg (not_selects_of_other other)]
    rfl

/-! ### FREE slots -/

theorem allSlots_eq_finRange : allSlots = List.finRange 48 := by decide

/-- R24: the lowest-numbered FREE slot. -/
theorem lowestFree_eq_some {s : State} {i : SlotId} (free : s.lease i = none) (lowest : ∀ j < i, s.lease j ≠ none) :
    s.lowestFree = some i := by
  unfold State.lowestFree State.freeSlots
  rw [allSlots_eq_finRange, List.head?_filter, List.find?_eq_some_iff_getElem]
  refine ⟨by simp [free], i.val, by simp, by simp, fun j below => ?_⟩
  have used := lowest ⟨j, by omega⟩ below
  simpa using Option.isSome_iff_ne_none.2 used

theorem lowestFree_eq_none {s : State} (full : ∀ i, s.lease i ≠ none) : s.lowestFree = none := by
  simp [State.lowestFree, State.freeSlots, full]

/-! ### The settlement of a claim (R117) -/

section
variable {s : State} {k : LineId} {t : Template}

theorem settleClaim_of_no_template (template : (s.wake k).template = none) : settleClaim k s = (s, .none) := by
  simp only [settleClaim, template]

theorem linked_eq_some {h : Handle} {l : Lease} (link : (s.wake k).link = some h) (named : s.named h = some l)
    (live : l.live = true) : s.linked k = some (h.slot, l) := by
  simp only [State.linked, link, named, live, if_true]

theorem linked_eq_none (link : (s.wake k).link = none) : s.linked k = none := by simp only [State.linked, link]

/-- R31: the renewal of a TIMED lease with a time. -/
theorem renew_of_timed {l : Lease} {n : Nat} (timed : l.term = .timed n) (time : Nat) :
    l.renew (some time) = { l with term := .timed time, state := l.state.load (some time) } := by
  simp only [Lease.renew, Lease.reload, timed, Term.renewed, Term.time]

theorem settleClaim_of_link {h : Handle} {l : Lease} {n : Nat} (template : (s.wake k).template = some t)
    (link : (s.wake k).link = some h) (named : s.named h = some l) (live : l.live = true) (timed : l.term = .timed n) :
    settleClaim k s = (withLease h.slot { l with term := .timed t.duration, state := l.state.load (some t.duration) } s,
      .renewed) := by
  simp only [settleClaim, template, linked_eq_some link named live, renew_of_timed timed, setLease_eq_withLease]

theorem settleClaim_of_no_link (template : (s.wake k).template = some t) (link : (s.wake k).link = none) :
    settleClaim k s = wakeCreation k t s := by
  simp only [settleClaim, template, linked_eq_none link]

theorem wakeCreation_of_fault (fault : s.faultAtOrAbove t.domain = true) : wakeCreation k t s = (s, .notMadeFault) :=
  if_pos fault

theorem wakeCreation_of_quota (sound : ¬ s.faultAtOrAbove t.domain = true)
    (quota : 16 ≤ (s.slotsOf (s.wake k).agent).length) : wakeCreation k t s = (s, .notMadeQuota) := by
  have short : s.shortfall (s.wake k).agent = some .quota := if_pos quota
  simp only [wakeCreation, if_neg sound, short]

theorem wakeCreation_of_full (sound : ¬ s.faultAtOrAbove t.domain = true)
    (quota : ¬ 16 ≤ (s.slotsOf (s.wake k).agent).length) (full : s.lowestFree = none) :
    wakeCreation k t s = (s, .notMadeTable) := by
  have short : s.shortfall (s.wake k).agent = some .table := by
    rw [State.shortfall, if_neg (by exact quota), full]
    rfl
  simp only [wakeCreation, if_neg sound, short]

/-- R27, R28: the lease that a line makes. -/
theorem newLease_timed (a : Agent) (d : Managed) (time : Nat) (wanted : Level) (origin : Origin) (assured : Level) :
    newLease a d (.timed time) wanted 0 origin assured =
      { holder := a, domain := d, term := .timed time, wanted := wanted,
        granted := if wanted.num ≤ assured.num then some wanted else none,
        state := if wanted.num ≤ assured.num then .held (some (Countdown.start time)) else .pending,
        tag := 0, origin := origin } := by
  unfold newLease
  split <;> rfl

theorem wakeCreation_of_free {i : SlotId} (sound : ¬ s.faultAtOrAbove t.domain = true)
    (quota : ¬ 16 ≤ (s.slotsOf (s.wake k).agent).length) (free : s.lowestFree = some i) :
    wakeCreation k t s =
      ((withNewLease i
        (newLease (s.wake k).agent t.domain (.timed t.duration) t.level 0 (.line k) (s.assuredOf t.domain)) s).setWake k
          { s.wake k with link := some (s.handle i) },
        if t.level.num ≤ (s.assuredOf t.domain).num then .madeHeld else .madePending) := by
  have short : s.shortfall (s.wake k).agent = none := by
    rw [State.shortfall, if_neg (by exact quota), free]
    rfl
  simp only [wakeCreation, if_neg sound, short, free, placeLease_eq_withNewLease]

end

theorem faultAtOrAbove_sampledLine (k : LineId) (level : Bool) (s : State) (d : Managed) :
    (sampledLine k level s).faultAtOrAbove d = s.faultAtOrAbove d :=
  faultAtOrAbove_congr rfl (fun _ => rfl) d

/-- R116, R118: a selected edge is a claim of the line that has sampled it, and the WAKE notice with what the settlement
answers goes to the bound agent. -/
theorem exec_lineEvent_selected {s v : State} {k : LineId} {level : Bool} {outcome : WakeOutcome}
    (released : s.resetHeld = false) (active : s.detectorActive k = true) (baseline : (s.wake k).baseline = some (!level))
    (selected : (s.wake k).edge.selects level = true)
    (settled : settleClaim k (sampledLine k level s) = (v, outcome)) :
    exec (.lineEvent k level) s = .next (v.post (s.wake k).agent (.wake k 1 outcome)) := by
  rw [exec_lineEvent k level released, takeEdge_of_edge active baseline, if_pos selected, wakeClaim, settled,
    wake_sampledLine]

/-- Settles O38: the claim of the line that has sampled the edge, settled by the row of `settleClaim` and `wakeCreation` that
holds; the lease table it is settled on is that of the state before. -/
theorem wakeClaimSettlesByTheFirstRow : Obligations.WakeClaimSettlesByTheFirstRow := by
  rintro s u k level released active baseline selected rfl tells
  have claim : ∀ {v outcome}, settleClaim k (sampledLine k level s) = (v, outcome) →
      exec (.lineEvent k level) s = .next (tells outcome v) := fun settled =>
    exec_lineEvent_selected released active baseline ((selects_iff _ _).2 selected) settled
  have record := wake_sampledLine k level s
  refine ⟨fun template => claim (settleClaim_of_no_template (by rw [record]; exact template)), fun t template => ?_⟩
  have template' : ((sampledLine k level s).wake k).template = some t := by rw [record]; exact template
  refine ⟨fun h l n link named live timed =>
    claim (settleClaim_of_link template' (by rw [record]; exact link) named live timed), fun link => ?_⟩
  have creation : settleClaim k (sampledLine k level s) = wakeCreation k t (sampledLine k level s) :=
    settleClaim_of_no_link template' (by rw [record]; exact link)
  have slots : (sampledLine k level s).slotsOf ((sampledLine k level s).wake k).agent = s.slotsOf (s.wake k).agent := by
    rw [record]; rfl
  split
  · rename_i fault
    exact claim (creation.trans (wakeCreation_of_fault (by rwa [faultAtOrAbove_sampledLine])))
  · rename_i sound
    rw [← faultAtOrAbove_sampledLine k level] at sound
    split
    · rename_i quota
      exact claim (creation.trans (wakeCreation_of_quota sound (by rwa [slots])))
    · rename_i quota
      rw [← slots] at quota
      refine ⟨fun full => claim (creation.trans (wakeCreation_of_full sound quota (lowestFree_eq_none full))),
        fun i free lowest => claim ?_⟩
      rw [creation, wakeCreation_of_free sound quota (lowestFree_eq_some free lowest), newLease_timed, record]
      rfl

end Sys2Proof.Machine
end

section
/-! Detectors and STOPPING: what an event leaves to its end, which brings the baselines and the part state up to date
(R113, R114, R182). -/

namespace Sys2Proof.Machine

/-! ### Events that leave the detectors and STOPPING alone -/

/-- From s to t no condition of a detector changes, no baseline comes or goes, and all managed
domains are down in t exactly when they were in s. -/
structure Still (s t : State) : Prop where
  partState : t.partState = s.partState
  assured : t.assured = s.assured
  allDown : t.allDown = s.allDown
  lines : ∀ k, (t.wake k).enabled = (s.wake k).enabled ∧ (t.wake k).home = (s.wake k).home ∧
    (t.wake k).baseline.isSome = (s.wake k).baseline.isSome

theorem Still.detectorActive {s t : State} (h : Still s t) (k : LineId) : t.detectorActive k = s.detectorActive k := by
  obtain ⟨enabled, home, _⟩ := h.lines k
  unfold State.detectorActive
  rw [h.partState, h.assured, enabled, home]

theorem still_of_engines {s t : State} (partState : t.partState = s.partState) (engines : t.engine = s.engine)
    (lines : ∀ k, (t.wake k).enabled = (s.wake k).enabled ∧ (t.wake k).home = (s.wake k).home ∧
      (t.wake k).baseline.isSome = (s.wake k).baseline.isSome) : Still s t :=
  ⟨partState, assured_congr fun d => by rw [engines], allDown_congr fun d => by rw [engines], lines⟩

theorem Still.refl (s : State) : Still s s := still_of_engines rfl rfl fun _ => ⟨rfl, rfl, rfl⟩

theorem outside.still {s t : State} (h : outside s t) : Still s t := by
  obtain ⟨_, _, _, _, _, _, _, _, _, rfl⟩ := h
  exact still_of_engines rfl rfl fun _ => ⟨rfl, rfl, rfl⟩

theorem leaseSide.still {s t : State} (h : leaseSide s t) : Still s t :=
  still_of_engines h.partState h.engine fun k => by rw [h.2 k]; exact ⟨rfl, rfl, rfl⟩

theorem still_lowerTimers (s : State) : Still s (lowerTimers s) :=
  ⟨rfl, assured_congr (state_lowerTimers s), allDown_congr (down_lowerTimers s), fun _ => ⟨rfl, rfl, rfl⟩⟩

/-- R114: an edge replaces one baseline by another. -/
theorem still_setBaseline {s : State} {k : LineId} {base : Bool} (baseline : (s.wake k).baseline = some base)
    (level : Bool) : Still s (s.setWake k { s.wake k with baseline := some level }) := by
  refine still_of_engines rfl rfl fun j => ?_
  rw [wake_setWake]
  split
  · subst j; exact ⟨rfl, rfl, by rw [baseline]; rfl⟩
  · exact ⟨rfl, rfl, rfl⟩

/-! ### What the end of an event restores -/

/-- The laws that the end of an event restores are kept from s to t. -/
def keepsEndLaws (s t : State) : Prop := (detectorLaw s → detectorLaw t) ∧ (stoppingLaw s → stoppingLaw t)

theorem keepsEndLaws.trans {s t u : State} (h : keepsEndLaws s t) (k : keepsEndLaws t u) : keepsEndLaws s u :=
  ⟨k.1 ∘ h.1, k.2 ∘ h.2⟩

theorem Still.keeps {s t : State} (h : Still s t) : keepsEndLaws s t := by
  refine ⟨fun detectors k => ?_, fun stopping => ?_⟩
  · rw [h.detectorActive, (h.lines k).2.2]
    exact detectors k
  · unfold stoppingLaw
    rw [h.partState, h.allDown]
    exact stopping

theorem keepsEndLaws.refl (s : State) : keepsEndLaws s s := (Still.refl s).keeps

theorem leaseSide.keeps {s t : State} (h : leaseSide s t) : keepsEndLaws s t := h.still.keeps

theorem outside.keeps {s t : State} (h : outside s t) : keepsEndLaws s t := h.still.keeps

theorem wake_refreshDetectors (s : State) (k : LineId) : (refreshDetectors s).wake k = refreshDetector s k := by
  rw [refreshDetectors_eq]
  simp [State.wake]

/-- R113: a refresh changes no condition of a detector. -/
theorem detectorActive_refreshDetectors (s : State) (k : LineId) :
    (refreshDetectors s).detectorActive k = s.detectorActive k := by
  obtain ⟨enabled, home⟩ := refreshDetector_fields s k
  refine detectorActive_congr ?_ ?_ (by rw [wake_refreshDetectors, enabled]) (by rw [wake_refreshDetectors, home])
  all_goals rw [refreshDetectors_eq]
  rfl

/-- R114: whatever the baselines were, a refresh makes them follow the detectors. -/
theorem detectorLaw_refreshDetectors (s : State) : detectorLaw (refreshDetectors s) := by
  intro k
  rw [detectorActive_refreshDetectors, wake_refreshDetectors]
  unfold refreshDetector
  split
  · rename_i active; rw [active]; rfl
  · rename_i inactive; rw [Bool.eq_false_iff.2 inactive]; rfl

theorem stoppingLaw_refreshDetectors {s : State} (h : stoppingLaw s) : stoppingLaw (refreshDetectors s) := by
  rw [refreshDetectors_eq]
  exact h

/-- R182: STOPPING that has ended is not STOPPING, and STOPPING that has not has a domain up. -/
theorem stoppingLaw_endStopping (s : State) : stoppingLaw (endStopping s) := by
  unfold endStopping
  split
  · exact fun stopping => by cases stopping
  · rename_i goesOn
    exact fun stopping => Bool.eq_false_iff.2 fun down => goesOn ⟨stopping, down⟩

theorem keepsEndLaws_refresh {s t : State} (h : stoppingLaw s → stoppingLaw t) : keepsEndLaws s (refreshDetectors t) :=
  ⟨fun _ => detectorLaw_refreshDetectors t, fun hs => stoppingLaw_refreshDetectors (h hs)⟩

/-- Whatever an event of the engines does, its end restores both laws. -/
theorem keepsEndLaws_closeEvent (s : State) (order : List Managed) (old new : State) :
    keepsEndLaws s (closeEvent order old new) :=
  (keepsEndLaws_refresh fun _ => stoppingLaw_endStopping new).trans
    (outside.keeps ⟨_, _, _, _, _, _, _, _, _, rfl⟩)

theorem keepsEndLaws_takeFault (d : Managed) (cause : FaultCause) (s : State) : keepsEndLaws s (takeFault d cause s) :=
  keepsEndLaws_closeEvent s _ _ _

/-! ### Requests on the lease table and the windows -/

theorem leaseSide_doAcquire (p : Agent) (body : List Byte) (s : State) : leaseSide s (doAcquire p body s).1 := by
  unfold doAcquire
  repeat' split
  case h_2 => exact leaseSide_placeLease _ _ s
  all_goals exact .refl s

theorem leaseSide_doRenew (p : Agent) (body : List Byte) (s : State) : leaseSide s (doRenew p body s).1 := by
  unfold doRenew
  repeat' split
  all_goals first
    | exact .refl s
    | exact leaseSide_setLease _ _ s

theorem leaseSide_modifyLease (i : SlotId) (level : Level) (l : Lease) (s : State) :
    leaseSide s (modifyLease i level l s).1 := by
  unfold modifyLease accept
  dsimp only
  repeat' split
  case h_1.isTrue => exact (leaseSide_setLease _ _ s).trans (leaseSide_relevelQueued _ _ _ _)
  all_goals exact leaseSide_setLease _ _ s

theorem leaseSide_doModify (p : Agent) (body : List Byte) (s : State) : leaseSide s (doModify p body s).1 := by
  unfold doModify
  repeat' split
  all_goals first
    | exact .refl s
    | exact leaseSide_modifyLease _ _ _ s

theorem leaseSide_doRelease (p : Agent) (body : List Byte) (s : State) : leaseSide s (doRelease p body s).1 := by
  unfold doRelease
  repeat' split
  case h_2 => exact leaseSide_freeSlot _ s
  all_goals exact .refl s

theorem leaseSide_doTakeNotice (p : Agent) (body : List Byte) (s : State) : leaseSide s (doTakeNotice p body s).1 := by
  unfold doTakeNotice
  split
  · exact .refl s
  · exact ((leasesFrom_setQueue p _ s).trans (leasesFrom_takenEffect _ _)).side

theorem leaseSide_doSetWindow (p : Agent) (body : List Byte) (s : State) : leaseSide s (doSetWindow p body s).1 := by
  unfold doSetWindow
  split
  · exact .refl s
  · exact leaseSide_of_eq ⟨_, _, _, _, rfl⟩

theorem leaseSide_doClearWindow (p : Agent) (body : List Byte) (s : State) : leaseSide s (doClearWindow p body s).1 := by
  unfold doClearWindow
  repeat' split
  case h_2.isFalse => exact leaseSide_of_eq ⟨_, _, _, _, rfl⟩
  all_goals exact .refl s

theorem leaseSide_doRevoke (p : Agent) (body : List Byte) (s : State) : leaseSide s (doRevoke p body s).1 := by
  unfold doRevoke
  repeat' split
  case h_2 => exact leaseSide_endLease _ _ s
  all_goals exact .refl s

theorem leaseSide_doEvict (p : Agent) (body : List Byte) (s : State) : leaseSide s (doEvict p body s).1 := by
  unfold doEvict
  split
  · exact .refl s
  · exact leaseSide_detachAgent _ s

/-! ### Requests on the configuration and the part state -/

theorem keepsEndLaws_doDefineDomain (p : Agent) (body : List Byte) (s : State) :
    keepsEndLaws s (doDefineDomain p body s).1 := by
  unfold doDefineDomain
  repeat' split
  case h_2.isFalse => exact (still_of_engines rfl rfl fun _ => ⟨rfl, rfl, rfl⟩).keeps
  all_goals exact .refl s

/-- R113: outside RUN no detector is active. -/
theorem detectorActive_of_not_run {s : State} (notRunning : s.partState ≠ .run) (k : LineId) :
    s.detectorActive k = false := by
  simp [State.detectorActive, notRunning]

/-- R121: a line's new record has no baseline. -/
theorem baseline_of_decodeDefineWake {body : List Byte} {k : LineId} {w : WakeLine}
    (h : decodeDefineWake body = some (k, w)) : w.baseline = none := by
  unfold decodeDefineWake at h
  split at h
  · cases h; rfl
  · cases h

theorem keepsEndLaws_doDefineWake (p : Agent) (body : List Byte) {s : State} (setup : s.partState = .setup) :
    keepsEndLaws s (doDefineWake p body s).1 := by
  unfold doDefineWake
  split
  · exact .refl s
  · rename_i k w decoded
    have notRunning : s.partState ≠ .run := by rw [setup]; decide
    refine ⟨fun detectors j => ?_, fun stopping => stopping⟩
    change ((s.setWake k w).wake j).baseline.isSome = (s.setWake k w).detectorActive j
    rw [detectorActive_of_not_run (s := s.setWake k w) notRunning, wake_setWake]
    split
    · rw [baseline_of_decodeDefineWake decoded]; rfl
    · rw [detectors j, detectorActive_of_not_run notRunning]

theorem keepsEndLaws_doSetWakeEnable (p : Agent) (body : List Byte) (s : State) :
    keepsEndLaws s (doSetWakeEnable p body s).1 := by
  unfold doSetWakeEnable accept
  dsimp only
  repeat' split
  case h_2.isFalse.isFalse => exact keepsEndLaws_refresh fun stopping => stopping
  all_goals exact .refl s

theorem keepsEndLaws_doStart (p : Agent) (body : List Byte) (s : State) : keepsEndLaws s (doStart p body s).1 := by
  unfold doStart
  repeat' split
  case h_2 => exact keepsEndLaws_refresh fun _ running => by cases running
  all_goals exact .refl s

theorem keepsEndLaws_restartPart (s : State) : keepsEndLaws s (restartPart s) :=
  keepsEndLaws_refresh fun _ => stoppingLaw_endStopping _

theorem keepsEndLaws_doClearFault (p : Agent) (body : List Byte) (s : State) :
    keepsEndLaws s (doClearFault p body s).1 := by
  unfold doClearFault
  repeat' split
  case h_2.isFalse.isFalse.isFalse => exact keepsEndLaws_closeEvent s _ _ _
  all_goals exact .refl s

theorem keepsEndLaws_own (r : Request) (p : Agent) (body : List Byte) {s : State}
    (admitted : r.admission s.partState = none) : keepsEndLaws s (r.own p body s).1 := by
  have setup : admitSetup s.partState = none → s.partState = .setup := by unfold admitSetup; split <;> simp [*]
  cases r with
  | status => exact .refl s
  | queryDomain => exact (doQueryDomain_state p body s).symm ▸ .refl s
  | queryLease => exact (doQueryLease_state p body s).symm ▸ .refl s
  | listLeases => exact (doListLeases_state p body s).symm ▸ .refl s
  | queryWake => exact (doQueryWake_state p body s).symm ▸ .refl s
  | acquire => exact (leaseSide_doAcquire p body s).keeps
  | renew => exact (leaseSide_doRenew p body s).keeps
  | modify => exact (leaseSide_doModify p body s).keeps
  | release => exact (leaseSide_doRelease p body s).keeps
  | takeNotice => exact (leaseSide_doTakeNotice p body s).keeps
  | detach => exact (leaseSide_detachAgent p s).keeps
  | setWindow => exact (leaseSide_doSetWindow p body s).keeps
  | clearWindow => exact (leaseSide_doClearWindow p body s).keeps
  | revoke => exact (leaseSide_doRevoke p body s).keeps
  | evict => exact (leaseSide_doEvict p body s).keeps
  | defineDomain => exact keepsEndLaws_doDefineDomain p body s
  | defineWake => exact keepsEndLaws_doDefineWake p body (setup admitted)
  | setWakeEnable => exact keepsEndLaws_doSetWakeEnable p body s
  | start => exact keepsEndLaws_doStart p body s
  | restart => exact keepsEndLaws_restartPart s
  | clearFault => exact keepsEndLaws_doClearFault p body s

theorem keepsEndLaws_checked (r : Request) (p : Agent) (body : List Byte) (s : State) :
    keepsEndLaws s (checked r r.own p body s).1 := by
  unfold checked
  split
  · exact .refl s
  · rename_i taken
    exact keepsEndLaws_own r p body (admission_of_earlyRefusal taken)

/-! ### The end of an exchange -/

theorem keepsEndLaws_setPort (p : Agent) (x : Port) (s : State) : keepsEndLaws s (s.setPort p x) :=
  outside.keeps ⟨_, _, _, _, _, _, _, _, _, rfl⟩

theorem keepsEndLaws_frameEnd {own : Agent → List Byte → State → State × Reply} {p : Agent} {body : List Byte} {s : State}
    (h : keepsEndLaws s (own p body s).1) (seq : Byte) : keepsEndLaws s (frameEnd own p seq body s) := by
  unfold frameEnd
  repeat' split
  case isFalse.isTrue => exact keepsEndLaws_setPort p _ s
  case isFalse.isFalse.isFalse => exact h.trans (keepsEndLaws_setPort p _ _)
  all_goals exact .refl s

theorem keepsEndLaws_request (r : Request) (p : Agent) (seq : Byte) (body : List Byte) (s : State) :
    keepsEndLaws s (frameEnd (checked r r.own) p seq body s) :=
  keepsEndLaws_frameEnd (keepsEndLaws_checked r p body s) seq

theorem keepsEndLaws_byCode (code : Byte) (p : Agent) (seq : Byte) (body : List Byte) (s : State) :
    keepsEndLaws s (frameEnd (requestByCode code) p seq body s) := by
  refine keepsEndLaws_frameEnd ?_ seq
  unfold requestByCode
  split
  · exact keepsEndLaws_checked _ p body s
  · exact .refl s

theorem keepsEndLaws_exchangeEnd (p : Agent) (bits : List Bool) (s : State) : keepsEndLaws s (exchangeEnd p bits s) := by
  unfold exchangeEnd
  repeat' split
  case h_2.isTrue => exact keepsEndLaws_setPort p _ s
  case h_3 => exact keepsEndLaws_byCode _ p _ _ s
  all_goals exact .refl s

/-! ### Events -/

theorem outside_setLine (k : LineId) (b : Bool) (s : State) : outside s (s.setLine k b) :=
  ⟨_, _, _, _, _, _, _, _, _, rfl⟩

theorem outside_setPgood (d : Managed) (b : Bool) (s : State) : outside s (s.setPgood d b) :=
  ⟨_, _, _, _, _, _, _, _, _, rfl⟩

theorem outside_setCkok (d : Managed) (b : Bool) (s : State) : outside s (s.setCkok d b) :=
  ⟨_, _, _, _, _, _, _, _, _, rfl⟩

/-- An event that is taken in some states alone. -/
theorem keepsEndLaws_guarded {c : Prop} [Decidable c] {s t : State} (h : keepsEndLaws s t) :
    keepsEndLaws s (if c then t else s) := by
  split
  · exact h
  · exact .refl s

/-- An event that a held reset shuts out. -/
theorem keepsEndLaws_unlessHeld {s t : State} (h : keepsEndLaws s t) :
    keepsEndLaws s (if s.resetHeld = true then s else t) := by
  split
  · exact .refl s
  · exact h

/-- An input takes its level, and the event acts on it unless a reset is held. -/
theorem keepsEndLaws_input {s u t : State} (input : outside s u) (h : keepsEndLaws u t) :
    keepsEndLaws s (if s.resetHeld = true then u else t) := by
  split
  · exact input.keeps
  · exact input.keeps.trans h

theorem keepsEndLaws_takeEdge (k : LineId) (level : Bool) (s : State) : keepsEndLaws s (takeEdge k level s) := by
  unfold takeEdge
  split
  · rename_i base baseline
    have sampled := (still_setBaseline baseline level).keeps
    repeat' split
    · exact sampled.trans (leaseSide_wakeClaim k _).keeps
    · exact sampled
    · exact .refl s
  · exact .refl s

theorem keepsEndLaws_takeTapWord (bits : List Bool) (s : State) : keepsEndLaws s (takeTapWord bits s) := by
  unfold takeTapWord
  repeat' split
  case h_1 => exact (leaseSide_matchAddress _ s).keeps
  all_goals exact .refl s

theorem keepsEndLaws_takeReport (d : Managed) (s : State) : keepsEndLaws s (takeReport d s) := by
  unfold takeReport
  split
  · have taken : keepsEndLaws s (s.setReport d none) := outside.keeps ⟨_, _, _, _, _, _, _, _, _, rfl⟩
    exact taken.trans (leaseSide.foldl _ (fun t i => leaseSide_reportLease _ i t) _ _).keeps
  · exact .refl s

theorem keepsEndLaws_endDrain (d : Managed) (s : State) : keepsEndLaws s (endDrain d s) := by
  unfold endDrain
  split
  · exact keepsEndLaws_takeFault d _ s
  · exact keepsEndLaws_closeEvent s _ _ _

/-- R169: after a part reset the part is in SETUP and no line is enabled. -/
theorem keepsEndLaws_resetPart (s : State) : keepsEndLaws s (resetPart s) := by
  have setup : (resetPart s).partState = .setup := rfl
  refine ⟨fun _ k => ?_, fun _ stopping => by rw [setup] at stopping; cases stopping⟩
  rw [detectorActive_of_not_run (by rw [setup]; decide), resetPart_wake]
  rfl

theorem keepsEndLaws_exec {c : Instr} {s t : State} (h : exec c s = .next t) : keepsEndLaws s t := by
  cases c
  all_goals rw [← next_injective h]
  case unknownRequest p seq code body => exact keepsEndLaws_byCode code p seq body s
  case retransmission p seq code body => exact keepsEndLaws_byCode code p seq body s
  case badFrame p bits => exact keepsEndLaws_exchangeEnd p bits s
  case idleExchange p bits => exact keepsEndLaws_exchangeEnd p bits s
  case tapWord bits => exact keepsEndLaws_takeTapWord bits s
  case lineEvent k b => exact keepsEndLaws_input (outside_setLine k b s) (keepsEndLaws_takeEdge k b _)
  case pgoodAsserted d =>
    exact keepsEndLaws_input (outside_setPgood d _ s) (keepsEndLaws_guarded (keepsEndLaws_closeEvent _ _ _ _))
  case pgoodDeasserted d =>
    exact keepsEndLaws_input (outside_setPgood d _ s) (keepsEndLaws_guarded (keepsEndLaws_takeFault d _ _))
  case ckokAsserted d =>
    exact keepsEndLaws_input (outside_setCkok d _ s) (keepsEndLaws_guarded (keepsEndLaws_closeEvent _ _ _ _))
  case ckokDeasserted d =>
    exact keepsEndLaws_input (outside_setCkok d _ s) (keepsEndLaws_guarded (keepsEndLaws_takeFault d _ _))
  case tick => exact keepsEndLaws_unlessHeld ((leaseSide_tickLeases s).keeps.trans (still_lowerTimers _).keeps)
  case leaseExpiry i =>
    exact keepsEndLaws_unlessHeld ((leaseSide_settleMarks s).trans (leaseSide_takeExpiry i _)).keeps
  case railUpExpiry d => exact keepsEndLaws_guarded (keepsEndLaws_takeFault d _ s)
  case settleExpiry d => exact keepsEndLaws_guarded (keepsEndLaws_closeEvent s _ _ _)
  case clockUpExpiry d => exact keepsEndLaws_guarded (keepsEndLaws_takeFault d _ s)
  case boostUpExpiry d => exact keepsEndLaws_guarded (keepsEndLaws_closeEvent s _ _ _)
  case boostDownExpiry d => exact keepsEndLaws_guarded (keepsEndLaws_closeEvent s _ _ _)
  case drainEnd d => exact keepsEndLaws_guarded (keepsEndLaws_endDrain d s)
  case faultDrainExpiry d => exact keepsEndLaws_guarded (keepsEndLaws_closeEvent s _ _ _)
  case stepBegin d => exact keepsEndLaws_unlessHeld (keepsEndLaws_closeEvent s _ _ _)
  case rampGrant => exact keepsEndLaws_unlessHeld (keepsEndLaws_closeEvent s _ _ _)
  case levelReachedReport d => exact keepsEndLaws_unlessHeld (keepsEndLaws_takeReport d s)
  case partReset => exact keepsEndLaws_resetPart s
  case partResetRelease cs tfrm =>
    exact keepsEndLaws_guarded (outside.keeps ⟨_, _, _, _, _, _, _, _, _, rfl⟩)
  case chipSelectDeasserted p => exact keepsEndLaws_unlessHeld (keepsEndLaws_setPort p _ s)
  case tfrmDeasserted => exact keepsEndLaws_unlessHeld (outside.keeps ⟨_, _, _, _, _, _, _, _, _, rfl⟩)
  all_goals exact keepsEndLaws_request _ _ _ _ s

/-- Settles O60: an event of the engines, START, RESTART and SET_WAKE_ENABLE end with the refresh of the detectors, and
whatever may bring the last domain down ends with the end of STOPPING; every other event is `Still` or in SETUP. -/
theorem baselinesAndStoppingFollowTheEngines : Obligations.BaselinesAndStoppingFollowTheEngines := by
  intro s t h
  change keepsEndLaws s t
  unfold step at h
  split at h
  · rw [← next_injective h]; exact .refl s
  · rename_i c rest _
    have taken : outside s { s with pending := rest } := ⟨_, _, _, _, _, _, _, _, _, rfl⟩
    exact taken.keeps.trans (keepsEndLaws_exec h)

end Sys2Proof.Machine
end

section
/-! When a queued notice stands, and the steps that no notice sees: they leave the queues, and what the notices tell of
the leases, of the part state and of the lines' agents (R125). -/

namespace Sys2Proof.Machine

/-! ### When a notice stands -/

section
variable {s : State} {a : Agent}

theorem stands_granted_iff {h : Handle} {level : Level} : noticeStands s a (.granted h level) = true ↔
    ∃ l, s.named h = some l ∧ l.holder = a ∧ l.granted = some level := by
  simp [noticeStands, Option.any_eq_true]

theorem stands_ended_iff {h : Handle} {cause : EndCause} : noticeStands s a (.ended h cause) = true ↔
    ∃ l, s.named h = some l ∧ l.holder = a ∧ l.state = .ended cause := by
  simp [noticeStands, Option.any_eq_true]

theorem stands_wake_iff {k : LineId} {count : Nat} {outcome : WakeOutcome} :
    noticeStands s a (.wake k count outcome) = true ↔
      s.partState = .run ∧ (s.wake k).agent = a ∧ 1 ≤ count ∧ count ≤ 255 := by
  simp [noticeStands, and_assoc]

theorem stands_fault_iff {d : Managed} {cause : FaultCause} {count : Nat} :
    noticeStands s a (.fault d cause count) = true ↔ a = 0 ∧ 1 ≤ count ∧ count ≤ 255 := by
  simp [noticeStands, and_assoc]

/-- R125: a notice that concerns a slot stands for the holder of the lease there alone. -/
theorem holder_of_stands {n : Notice} {i : SlotId} (stands : noticeStands s a n = true) (slot : n.slot? = some i) :
    ∃ l, s.lease i = some l ∧ l.holder = a := by
  cases n with
  | granted h level =>
    cases slot
    obtain ⟨l, named, holder, _⟩ := stands_granted_iff.1 stands
    exact ⟨l, lease_of_named named, holder⟩
  | ended h cause =>
    cases slot
    obtain ⟨l, named, holder, _⟩ := stands_ended_iff.1 stands
    exact ⟨l, lease_of_named named, holder⟩
  | wake | fault => cases slot

end

/-- Queues are no part of what notices tell. -/
theorem noticeStands_setQueue (s : State) (a : Agent) (q : List Notice) :
    noticeStands (s.setQueue a q) = noticeStands s := by
  funext b n
  cases n <;> rfl

/-! ### Steps that no notice sees -/

/-- The lease goes on with its holder, and stays ended if it was. -/
structure Lease.Continues (l l' : Lease) : Prop where
  holder : l'.holder = l.holder
  ended : ∀ cause, l.state = .ended cause → l'.state = .ended cause

theorem Lease.Continues.refl (l : Lease) : l.Continues l := ⟨rfl, fun _ => id⟩

theorem not_ended_of_live {l : Lease} (live : l.live = true) (cause : EndCause) : l.state ≠ .ended cause := by
  intro ended
  simp [Lease.live, ended] at live

/-- A live lease goes on in any state. -/
theorem continues_of_live {l l' : Lease} (live : l.live = true) (holder : l'.holder = l.holder) : l.Continues l' :=
  ⟨holder, fun cause ended => absurd ended (not_ended_of_live live cause)⟩

theorem live_of_pending {l : Lease} (pending : l.state = .pending) : l.live = true := by simp [Lease.live, pending]

theorem live_of_held {l : Lease} {c : Option Countdown} (held : l.state = .held c) : l.live = true := by
  simp [Lease.live, held]

/-- From s to t the queues stay, every lease goes on under its handle with its granted level, and a RUN part keeps its state
and the agents of its lines. -/
structure Quiet (s t : State) : Prop where
  queues : t.queues = s.queues
  leases : ∀ i, ∀ l ∈ s.lease i, ∃ l' ∈ t.lease i,
    (t.slot i).generation = (s.slot i).generation ∧ l.Continues l' ∧ l'.granted = l.granted
  lines : s.partState = .run → t.partState = .run ∧ ∀ k, (t.wake k).agent = (s.wake k).agent

theorem Quiet.refl (s : State) : Quiet s s :=
  ⟨rfl, fun _ l h => ⟨l, h, rfl, .refl l, rfl⟩, fun running => ⟨running, fun _ => rfl⟩⟩

theorem Quiet.trans {s t u : State} (h : Quiet s t) (k : Quiet t u) : Quiet s u := by
  refine ⟨k.queues.trans h.queues, fun i l hl => ?_, fun running => ?_⟩
  · obtain ⟨l', hl', generation, continues, granted⟩ := h.leases i l hl
    obtain ⟨l'', hl'', generation', continues', granted'⟩ := k.leases i l' hl'
    exact ⟨l'', hl'', generation'.trans generation, ⟨continues'.holder.trans continues.holder,
      fun cause ended => continues'.ended cause (continues.ended cause ended)⟩, granted'.trans granted⟩
  · obtain ⟨running, agents⟩ := h.lines running
    obtain ⟨running, agents'⟩ := k.lines running
    exact ⟨running, fun j => (agents' j).trans (agents j)⟩

theorem Quiet.queue {s t : State} (h : Quiet s t) : t.queue = s.queue := by
  funext a
  simp [State.queue, h.queues]

/-- R22: a handle goes on naming its lease. -/
theorem Quiet.named {s t : State} (h : Quiet s t) {g : Handle} {l : Lease} (named : s.named g = some l) :
    ∃ l', t.named g = some l' ∧ l.Continues l' ∧ l'.granted = l.granted := by
  obtain ⟨l', hl', generation, continues, granted⟩ := h.leases g.slot l (lease_of_named named)
  have current : (s.slot g.slot).generation = g.generation := by
    unfold State.named at named
    split at named
    · assumption
    · cases named
  exact ⟨l', by rw [State.named, if_pos (generation.trans current)]; exact hl', continues, granted⟩

theorem Quiet.stands {s t : State} (h : Quiet s t) {a : Agent} {n : Notice} (stands : noticeStands s a n = true) :
    noticeStands t a n = true := by
  cases n with
  | granted g level =>
    obtain ⟨l, named, holder, granted⟩ := stands_granted_iff.1 stands
    obtain ⟨l', named', continues, same⟩ := h.named named
    exact stands_granted_iff.2 ⟨l', named', continues.holder.trans holder, same.trans granted⟩
  | ended g cause =>
    obtain ⟨l, named, holder, ended⟩ := stands_ended_iff.1 stands
    obtain ⟨l', named', continues, _⟩ := h.named named
    exact stands_ended_iff.2 ⟨l', named', continues.holder.trans holder, continues.ended cause ended⟩
  | wake k count outcome =>
    obtain ⟨running, agent, range⟩ := stands_wake_iff.1 stands
    obtain ⟨running, agents⟩ := h.lines running
    exact stands_wake_iff.2 ⟨running, (agents k).trans agent, range⟩
  | fault d cause count => exact stands_fault_iff.2 (stands_fault_iff.1 stands)

/-! ### The operations that no notice sees -/

/-- Where the slots that are not FREE stay, what notices tell of the leases stays. -/
theorem quiet_of_slots {s t : State} (queues : t.queues = s.queues)
    (slots : ∀ i, s.lease i ≠ none → t.slot i = s.slot i)
    (lines : s.partState = .run → t.partState = .run ∧ ∀ k, (t.wake k).agent = (s.wake k).agent) : Quiet s t := by
  refine ⟨queues, fun i l h => ?_, lines⟩
  have same := slots i (by rw [Option.mem_def.1 h]; simp)
  exact ⟨l, by rwa [lease_eq_of_slot same], by rw [same], .refl l, rfl⟩

theorem quiet_outside {s t : State} (h : outside s t) : Quiet s t := by
  obtain ⟨_, _, _, _, _, _, _, _, _, rfl⟩ := h
  exact quiet_of_slots rfl (fun _ _ => rfl) fun running => ⟨running, fun _ => rfl⟩

theorem quiet_moveSide {s t : State} (h : moveSide s t) : Quiet s t := by
  obtain ⟨_, _, _, _, _, rfl⟩ := h
  exact quiet_of_slots rfl (fun _ _ => rfl) fun running => ⟨running, fun _ => rfl⟩

theorem leaseSide.agent {s t : State} (h : leaseSide s t) (k : LineId) : (t.wake k).agent = (s.wake k).agent := by
  rw [h.2 k]

/-- An operation of the lease table that leaves the queues and the slots that are not FREE. -/
theorem quiet_leaseSide {s t : State} (side : leaseSide s t) (queues : t.queues = s.queues)
    (slots : ∀ i, s.lease i ≠ none → t.slot i = s.slot i) : Quiet s t :=
  quiet_of_slots queues slots fun running => ⟨side.partState.trans running, side.agent⟩

theorem slot_leaveTable (i : SlotId) (l : Lease) (s : State) : (leaveTable i l s).slot = s.slot := by
  funext j
  simp [State.slot, slots_leaveTable]

theorem quiet_leaveTable (i : SlotId) (l : Lease) (s : State) : Quiet s (leaveTable i l s) :=
  quiet_leaseSide (leaseSide_leaveTable i l s) (queues_leaveTable i l s) fun j _ => by rw [slot_leaveTable]

/-- R27: no notice concerns a FREE slot, so none sees the lease made there. -/
theorem quiet_placeLease {i : SlotId} {s : State} (free : s.lease i = none) (l : Lease) : Quiet s (placeLease i l s) := by
  refine quiet_leaseSide (leaseSide_placeLease i l s) (by rw [placeLease_eq_withNewLease]; rfl) fun j taken => ?_
  have other : j ≠ i := fun eq => taken (eq ▸ free)
  rw [placeLease_eq_withNewLease]
  exact slot_setSlot_ne s other _

/-- A line's record is rewritten with the agent it has. -/
theorem quiet_setWake {k : LineId} {w : WakeLine} {s : State} (agent : w.agent = (s.wake k).agent) :
    Quiet s (s.setWake k w) := by
  refine quiet_of_slots rfl (fun _ _ => rfl) fun running => ⟨running, fun j => ?_⟩
  rw [wake_setWake]
  split
  · subst j; exact agent
  · rfl

/-- A lease is rewritten in a way that no notice tells of. -/
theorem quiet_setLease {s : State} {i : SlotId} {l l' : Lease} (h : s.lease i = some l) (continues : l.Continues l')
    (granted : l'.granted = l.granted) : Quiet s (s.setLease i l') := by
  refine ⟨rfl, fun j k hk => ?_, fun running => ⟨running, fun _ => rfl⟩⟩
  by_cases here : j = i
  · subst j
    cases Option.some.inj (h.symm.trans hk)
    exact ⟨l', by rw [lease_setLease, if_pos rfl]; rfl, by simp [State.setLease], continues, granted⟩
  · exact ⟨k, by rwa [lease_setLease, if_neg here], by rw [State.setLease, slot_setSlot_ne s here], .refl k, rfl⟩

theorem continues_renew (l : Lease) (time : Option Nat) : l.Continues (l.renew time) :=
  ⟨rfl, fun cause ended => by simp [Lease.renew, Lease.reload, ended]⟩

theorem continues_reload (l : Lease) : l.Continues l.reload := ⟨rfl, fun cause ended => by simp [Lease.reload, ended]⟩

/-- R31: no notice tells of a lease's time. -/
theorem quiet_renew {s : State} {i : SlotId} {l : Lease} (h : s.lease i = some l) (time : Option Nat) :
    Quiet s (s.setLease i (l.renew time)) :=
  quiet_setLease h (continues_renew l time) rfl

/-- A HELD lease goes on with another countdown. -/
theorem quiet_countdown {s : State} {i : SlotId} {l : Lease} {c : Option Countdown} (h : s.lease i = some l)
    (held : l.state = .held c) (c' : Option Countdown) : Quiet s (s.setLease i { l with state := .held c' }) :=
  quiet_setLease h (continues_of_live (live_of_held held) rfl) rfl

theorem Quiet.foldl {α : Type} (f : State → α → State) (each : ∀ s a, Quiet s (f s a)) (l : List α) (s : State) :
    Quiet s (l.foldl f s) :=
  foldl_relation Quiet .refl (fun _ _ _ h k => h.trans k) f each l s

theorem quiet_reloadClaim (w : WindowId) (s : State) : Quiet s (reloadClaim w s) := by
  refine .foldl _ (fun s i => ?_) _ s
  unfold reloadAt
  split
  · rename_i l h
    split
    · exact quiet_setLease h (continues_reload l) rfl
    · exact .refl s
  · exact .refl s

/-- R103, R104: no notice sees the reload claims of an address. -/
theorem quiet_matchAddress (a : Address) (s : State) : Quiet s (matchAddress a s) :=
  .foldl _ (fun s w => quiet_reloadClaim w s) _ s

theorem quiet_settleMarks (s : State) : Quiet s (settleMarks s) := by
  have side := leaseSide_settleMarks s
  refine ⟨by simp only [settleMarks], fun i l h => ⟨{ l with state := l.state.settle }, ?_, ?_, ?_, rfl⟩,
    fun running => ⟨side.partState.trans running, side.agent⟩⟩
  · simp only [Option.mem_def, lease_settleMarks, Option.mem_def.1 h, Option.map_some]
  · simp [settleMarks, State.slot]
  · exact ⟨rfl, fun cause ended => by simp [ended]⟩

/-! ### The end of an event -/

theorem quiet_endStopping (s : State) : Quiet s (endStopping s) := by
  unfold endStopping
  split
  · rename_i h
    exact quiet_of_slots rfl (fun _ _ => rfl) fun running => by rw [running] at h; cases h.1
  · exact .refl s

theorem quiet_refreshDetectors (s : State) : Quiet s (refreshDetectors s) := by
  refine quiet_of_slots (by rw [refreshDetectors_eq]) (fun i _ => by rw [refreshDetectors_eq]; rfl) fun running => ?_
  refine ⟨by rw [refreshDetectors_eq]; exact running, fun k => ?_⟩
  rw [wake_refreshDetectors]
  unfold refreshDetector
  split <;> rfl

theorem quiet_closeEvent (order : List Managed) (old new : State) : Quiet new (closeEvent order old new) :=
  ((quiet_endStopping new).trans (quiet_refreshDetectors _)).trans (quiet_outside ⟨_, _, _, _, _, _, _, _, _, rfl⟩)

/-- No notice sees an event of the engines. -/
theorem Moves.quiet_event {s t : State} (h : Moves s t) (order : List Managed) (old : State) :
    Quiet s (closeEvent order old t) :=
  (quiet_moveSide h.side).trans (quiet_closeEvent order old t)

/-! ### What the lease table settles of a wake claim -/

theorem quiet_wakeCreation (k : LineId) (t : Template) (s : State) : Quiet s (wakeCreation k t s).1 := by
  unfold wakeCreation
  split
  · exact .refl s
  · split
    · exact .refl s
    · exact .refl s
    · exact .refl s
    · rename_i i _ free
      exact (quiet_placeLease (lease_lowestFree free) _).trans (quiet_setWake (by rw [wake_placeLease]))

/-- R117: the rows of a claim change no lease that a notice tells of. -/
theorem quiet_settleClaim (k : LineId) (s : State) : Quiet s (settleClaim k s).1 := by
  unfold settleClaim
  split
  · exact .refl s
  · split
    · rename_i linked
      exact quiet_renew (lease_of_linked linked) _
    · exact quiet_wakeCreation k _ s

end Sys2Proof.Machine
end

section
/-! What posting, purging and relevelling keep: no queue repeats a kind and identity, and every notice stands
(R125 to R134). -/

namespace Sys2Proof.Machine

/-! ### One queue -/

/-- R125: the queue is one that agent a may have: no kind and identity twice, and every notice stands. -/
def queueStands (s : State) (a : Agent) (q : List Notice) : Prop :=
  (q.map Notice.key).Nodup ∧ ∀ n ∈ q, noticeStands s a n = true

theorem queueStands_nil (s : State) (a : Agent) : queueStands s a [] := ⟨List.nodup_nil, by simp⟩

/-- Notices that leave a queue leave the others as they stood. -/
theorem queueStands_sublist {s : State} {a : Agent} {q q' : List Notice} (sub : q'.Sublist q) (h : queueStands s a q) :
    queueStands s a q' :=
  ⟨(sub.map Notice.key).nodup h.1, fun n mem => h.2 n (sub.subset mem)⟩

/-- R126: a post leaves the queue in order when it stands itself, the notices of other kinds or identities stand, and it
merges into one of its own so that it stands. -/
theorem queueStands_postTo {s : State} {a : Agent} {q : List Notice} {n : Notice} (nodup : (q.map Notice.key).Nodup)
    (others : ∀ m ∈ q, m.key ≠ n.key → noticeStands s a m = true) (own : noticeStands s a n = true)
    (merges : ∀ m ∈ q, m.key = n.key → ∃ merged, n.merge m = some merged ∧ noticeStands s a merged = true) :
    queueStands s a (postTo n q) := by
  rcases postTo_cases n q with ⟨eq, apart⟩ | ⟨before, m, after, merged, rfl, merge, eq⟩
  · have fresh : ∀ m ∈ q, m.key ≠ n.key := by
      intro m mem same
      obtain ⟨merged, merge, _⟩ := merges m mem same
      cases (apart m mem).symm.trans merge
    rw [eq]
    refine ⟨?_, fun m mem => ?_⟩
    · rw [List.map_append, List.nodup_append]
      refine ⟨nodup, List.nodup_singleton _, fun key mem key' mem' => ?_⟩
      obtain ⟨m, queued, rfl⟩ := List.mem_map.1 mem
      rw [List.mem_singleton.1 mem']
      exact fresh m queued
    · rcases List.mem_append.1 mem with mem | mem
      · exact others m mem (fresh m mem)
      · rw [List.mem_singleton.1 mem]; exact own
  · obtain ⟨mergedKey, key⟩ := merge_key merge
    rw [eq]
    refine ⟨by simpa [mergedKey] using nodup, fun x mem => ?_⟩
    have apart : ∀ x ∈ before ++ after, x.key ≠ n.key := by
      have split := (List.nodup_middle.1 (by simpa using nodup) : (m.key :: (before.map Notice.key ++ _)).Nodup)
      intro x mem same
      refine (List.nodup_cons.1 split).1 ?_
      rw [key, ← same, ← List.map_append]
      exact List.mem_map_of_mem mem
    obtain ⟨merged', merge', stands⟩ := merges m (by simp) key
    rcases List.mem_append.1 mem with mem | mem
    · exact others x (by simp [mem]) (apart x (by simp [mem]))
    · rcases List.mem_cons.1 mem with rfl | mem
      · cases merge.symm.trans merge'
        exact stands
      · exact others x (by simp [mem]) (apart x (by simp [mem]))

/-! ### The queues of the part -/

/-- One queue is written. -/
theorem noticeLaw_setQueue {s : State} {a : Agent} {q : List Notice} (others : ∀ b ≠ a, queueStands s b (s.queue b))
    (own : queueStands s a q) : noticeLaw (s.setQueue a q) := by
  intro b
  change queueStands (s.setQueue a q) b ((s.setQueue a q).queue b)
  unfold queueStands
  rw [noticeStands_setQueue, queue_setQueue]
  split
  · subst b; exact own
  · exact others b ‹_›

/-- Where the law holds, one queue may lose notices. -/
theorem noticeLaw_sublist {s : State} (law : noticeLaw s) {a : Agent} {q : List Notice} (sub : q.Sublist (s.queue a)) :
    noticeLaw (s.setQueue a q) :=
  noticeLaw_setQueue (fun b _ => law b) (queueStands_sublist sub (law a))

/-- R126: where the law holds, a notice that stands may be posted if it merges with its own kind and identity. -/
theorem noticeLaw_post {s : State} (law : noticeLaw s) {a : Agent} {n : Notice} (own : noticeStands s a n = true)
    (merges : ∀ m ∈ s.queue a, m.key = n.key → ∃ merged, n.merge m = some merged ∧ noticeStands s a merged = true) :
    noticeLaw (s.post a n) :=
  noticeLaw_setQueue (fun b _ => law b) (queueStands_postTo (law a).1 (fun m mem _ => (law a).2 m mem) own merges)

/-- The law of the notices passes from s to t. -/
def keepsNotices (s t : State) : Prop := noticeLaw s → noticeLaw t

theorem keepsNotices.refl (s : State) : keepsNotices s s := id

theorem keepsNotices.trans {s t u : State} (h : keepsNotices s t) (k : keepsNotices t u) : keepsNotices s u := k ∘ h

theorem keepsNotices.foldl {α : Type} (f : State → α → State) (each : ∀ s a, keepsNotices s (f s a)) (l : List α)
    (s : State) : keepsNotices s (l.foldl f s) :=
  foldl_relation keepsNotices .refl (fun _ _ _ h k => h.trans k) f each l s

theorem Quiet.keeps {s t : State} (h : Quiet s t) : keepsNotices s t := by
  intro law a
  rw [h.queue]
  exact ⟨(law a).1, fun n mem => h.stands ((law a).2 n mem)⟩

theorem noticeLaw_of_empty {s : State} (empty : ∀ a, s.queue a = []) : noticeLaw s := by
  intro a
  rw [empty a]
  exact queueStands_nil s a

/-! ### Counted notices (R129, R130) -/

theorem raiseCount_range {n : Nat} (h : 1 ≤ n ∧ n ≤ 255) : 1 ≤ raiseCount n ∧ raiseCount n ≤ 255 := by
  have limit : Config.countLimit = 255 := rfl
  unfold raiseCount
  split <;> omega

/-- R129: a WAKE notice is posted in RUN to the line's agent. -/
theorem noticeLaw_post_wake {s : State} (law : noticeLaw s) (running : s.partState = .run) {k : LineId} {a : Agent}
    (agent : (s.wake k).agent = a) (outcome : WakeOutcome) : noticeLaw (s.post a (.wake k 1 outcome)) := by
  refine noticeLaw_post law (stands_wake_iff.2 ⟨running, agent, by decide⟩) fun m mem key => ?_
  cases m with
  | wake j count old =>
    cases key
    obtain ⟨_, _, range⟩ := stands_wake_iff.1 ((law a).2 _ mem)
    exact ⟨.wake k (raiseCount count) outcome, by simp [Notice.merge],
      stands_wake_iff.2 ⟨running, agent, raiseCount_range range⟩⟩
  | granted | ended | fault => cases key

/-- R130: a FAULT notice is posted to A0. -/
theorem noticeLaw_post_fault {s : State} (law : noticeLaw s) (d : Managed) (cause : FaultCause) :
    noticeLaw (s.post 0 (.fault d cause 1)) := by
  refine noticeLaw_post law (stands_fault_iff.2 (by decide)) fun m mem key => ?_
  cases m with
  | fault e old count =>
    cases key
    obtain ⟨_, range⟩ := stands_fault_iff.1 ((law 0).2 _ mem)
    exact ⟨.fault d cause (raiseCount count), by simp [Notice.merge], stands_fault_iff.2 ⟨rfl, raiseCount_range range⟩⟩
  | granted | ended | wake => cases key

/-! ### The end of a lease (R128) -/

/-- R128: no ENDED notice is queued for a live lease. -/
theorem key_ne_ended_of_live {s : State} (law : noticeLaw s) {i : SlotId} {l : Lease} (h : s.lease i = some l)
    (live : l.live = true) {a : Agent} {m : Notice} (mem : m ∈ s.queue a) : m.key ≠ .ended i := by
  intro key
  cases m with
  | ended g cause =>
    cases key
    obtain ⟨l', named, _, ended⟩ := stands_ended_iff.1 ((law a).2 _ mem)
    cases h.symm.trans (lease_of_named named)
    exact not_ended_of_live live cause ended
  | granted | wake | fault => cases key

theorem named_handle (s : State) (i : SlotId) : s.named (s.handle i) = s.lease i := by
  simp [State.named, State.handle]

theorem keepsNotices_endLease (i : SlotId) (cause : EndCause) (s : State) : keepsNotices s (endLease i cause s) := by
  intro law
  unfold endLease
  split
  · rename_i l h
    split
    · rename_i live
      have left := quiet_leaveTable i l s
      have lease : (leaveTable i l s).lease i = some l := by rw [State.lease, slot_leaveTable]; exact h
      have quiet : Quiet s ((leaveTable i l s).setLease i { l with state := .ended cause }) :=
        left.trans (quiet_setLease lease (continues_of_live live rfl) rfl)
      refine noticeLaw_post (quiet.keeps law) (stands_ended_iff.2 ⟨{ l with state := .ended cause }, ?_, rfl, rfl⟩) ?_
      · have handle : s.handle i = ((leaveTable i l s).setLease i { l with state := .ended cause }).handle i := by
          rw [State.handle, State.handle, State.setLease, slot_setSlot_self, slot_leaveTable]
        rw [handle, named_handle, lease_setLease, if_pos rfl]
      · rw [quiet.queue]
        exact fun m mem key => absurd key (key_ne_ended_of_live law h live mem)
    · exact law
  · exact law

theorem keepsNotices_endAll (is : List SlotId) (cause : EndCause) (s : State) : keepsNotices s (endAll is cause s) :=
  .foldl _ (fun s i => keepsNotices_endLease i cause s) is s

/-! ### The freeing of slots (R133) -/

/-- R133: the notices of a freed slot leave its holder's queue, and no other agent has any of it. -/
theorem keepsNotices_withFreed (gone : SlotId → Bool) (s : State) : keepsNotices s (withFreed gone s) := by
  have side := leaseSide_withFreed gone s
  intro law a
  rw [queue_withFreed]
  refine ⟨(queueStands_sublist List.filter_sublist (law a)).1, fun n mem => ?_⟩
  obtain ⟨mem, stays⟩ := List.mem_filter.1 mem
  have stands := (law a).2 n mem
  have named : ∀ h : Handle, n.slot? = some h.slot → (withFreed gone s).named h = s.named h := by
    intro h slot
    obtain ⟨l, lease, holder⟩ := holder_of_stands stands slot
    have kept : gone h.slot = false := by simpa [slot, lease, holder] using stays
    have same : (withFreed gone s).slot h.slot = s.slot h.slot := by rw [slot_withFreed, kept]; rfl
    rw [State.named, same, lease_eq_of_slot same]
    rfl
  cases n with
  | granted h level => rw [stands_granted_iff, named h rfl]; exact stands_granted_iff.1 stands
  | ended h cause => rw [stands_ended_iff, named h rfl]; exact stands_ended_iff.1 stands
  | wake k count outcome =>
    rw [stands_wake_iff, side.partState, side.agent]
    exact stands_wake_iff.1 stands
  | fault d cause count => exact stands_fault_iff.2 (stands_fault_iff.1 stands)

theorem keepsNotices_freeSlot (i : SlotId) (s : State) : keepsNotices s (freeSlot i s) := by
  cases h : s.lease i with
  | none => rw [freeSlot_free h]; exact .refl s
  | some l => rw [freeSlot_eq_withFreed h]; exact keepsNotices_withFreed _ s

theorem keepsNotices_freeSlots (is : List SlotId) (s : State) : keepsNotices s (freeSlots is s) :=
  .foldl _ (fun s i => keepsNotices_freeSlot i s) is s

/-! ### A new granted level (R127) -/

section
variable {s : State} {i : SlotId} {l l' : Lease} {a : Agent}

/-- A handle of the slot names the rewritten lease if it named a lease, and other handles name what they named. -/
theorem named_setLease (h : s.lease i = some l) (l' : Lease) (g : Handle) :
    (s.setLease i l').named g = if g.slot = i then (s.named g).map fun _ => l' else s.named g := by
  unfold State.named
  by_cases here : g.slot = i
  · have generation : ((s.setLease i l').slot i).generation = (s.slot i).generation := by simp [State.setLease]
    rw [here, generation, lease_setLease, if_pos rfl, if_pos rfl, h]
    split <;> rfl
  · have other : (s.setLease i l').slot g.slot = s.slot g.slot := slot_setSlot_ne s here _
    rw [if_neg here, other, lease_setLease, if_neg here]

/-- The GRANTED notices of a slot alone tell of its granted level. -/
theorem stands_setLease_other (h : s.lease i = some l) (continues : l.Continues l') {n : Notice}
    (other : n.key ≠ .granted i) (stands : noticeStands s a n = true) : noticeStands (s.setLease i l') a n = true := by
  cases n with
  | granted g level =>
    obtain ⟨k, named, tells⟩ := stands_granted_iff.1 stands
    have elsewhere : g.slot ≠ i := fun here => other (by rw [Notice.key, here])
    exact stands_granted_iff.2 ⟨k, by rwa [named_setLease h, if_neg elsewhere], tells⟩
  | ended g cause =>
    obtain ⟨k, named, holder, ended⟩ := stands_ended_iff.1 stands
    by_cases here : g.slot = i
    · cases h.symm.trans (here ▸ lease_of_named named)
      exact stands_ended_iff.2 ⟨l', by rw [named_setLease h, if_pos here, named]; rfl,
        continues.holder.trans holder, continues.ended cause ended⟩
    · exact stands_ended_iff.2 ⟨k, by rwa [named_setLease h, if_neg here], holder, ended⟩
  | wake | fault => exact stands

/-- R127: a queued GRANTED notice stands again when it carries the new granted level. -/
theorem stands_regranted (h : s.lease i = some l) (continues : l.Continues l') {level old : Level}
    (granted : l'.granted = some level) {g : Handle} (slot : g.slot = i)
    (stands : noticeStands s a (.granted g old) = true) : noticeStands (s.setLease i l') a (.granted g level) = true := by
  obtain ⟨k, named, holder, _⟩ := stands_granted_iff.1 stands
  cases h.symm.trans (slot ▸ lease_of_named named)
  exact stands_granted_iff.2 ⟨l', by rw [named_setLease h, if_pos slot, named]; rfl,
    continues.holder.trans holder, granted⟩

/-- R127: no other agent has a notice of the slot. -/
theorem key_ne_of_other_holder (law : noticeLaw s) (h : s.lease i = some l) {b : Agent} (other : b ≠ l.holder)
    {n : Notice} (mem : n ∈ s.queue b) : n.key ≠ .granted i := by
  intro key
  cases n with
  | granted g level =>
    cases key
    obtain ⟨k, lease, holder⟩ := holder_of_stands ((law b).2 _ mem) rfl
    cases h.symm.trans lease
    exact other holder.symm
  | ended | wake | fault => cases key

/-- The queues of the other agents stand whatever level the lease is granted. -/
theorem others_setLease (law : noticeLaw s) (h : s.lease i = some l) (continues : l.Continues l') :
    ∀ b ≠ l.holder, queueStands (s.setLease i l') b ((s.setLease i l').queue b) := fun b other =>
  ⟨(law b).1, fun n mem =>
    stands_setLease_other h continues (key_ne_of_other_holder law h other mem) ((law b).2 n mem)⟩

/-- R127: a grant is posted with its level, and a queued GRANTED notice of the lease takes the level in its place. -/
theorem noticeLaw_post_granted (law : noticeLaw s) (h : s.lease i = some l) (continues : l.Continues l') {level : Level}
    (granted : l'.granted = some level) :
    noticeLaw ((s.setLease i l').post l.holder (.granted (s.handle i) level)) := by
  refine noticeLaw_setQueue (others_setLease law h continues) (queueStands_postTo (law l.holder).1 ?_ ?_ ?_)
  · exact fun n mem other => stands_setLease_other h continues other ((law l.holder).2 n mem)
  · refine stands_granted_iff.2 ⟨l', ?_, continues.holder, granted⟩
    rw [named_setLease h, named_handle, h]
    exact if_pos rfl
  · intro n mem key
    cases n with
    | granted g old =>
      have slot : g.slot = i := NoticeKey.granted.inj key
      exact ⟨_, by simp [Notice.merge, slot, State.handle],
        stands_regranted h continues granted slot ((law l.holder).2 _ mem)⟩
    | ended | wake | fault => cases key

/-- R127: MODIFY hands a changed granted level to the queued GRANTED notice of the lease. -/
theorem noticeLaw_relevelQueued (law : noticeLaw s) (h : s.lease i = some l) (continues : l.Continues l') {level : Level}
    (granted : l'.granted = some level) : noticeLaw ((s.setLease i l').relevelQueued l.holder i level) := by
  refine noticeLaw_setQueue (others_setLease law h continues) ⟨?_, fun m mem => ?_⟩
  · rw [keys_relevel]
    exact (law l.holder).1
  · obtain ⟨n, queued, rfl⟩ := List.mem_map.1 mem
    have stands := (law l.holder).2 n queued
    cases n with
    | granted g old =>
      by_cases slot : g.slot = i
      · simpa [Notice.relevel, slot] using stands_regranted h continues granted slot stands
      · have other : (Notice.granted g old).key ≠ .granted i := fun key => slot (NoticeKey.granted.inj key)
        simpa [Notice.relevel, slot] using stands_setLease_other h continues other stands
    | ended g cause => exact stands_setLease_other (n := .ended g cause) h continues (by simp [Notice.key]) stands
    | wake | fault => exact stands

end

end Sys2Proof.Machine
end

section
/-! Every step keeps the notices in order, and a queue in order has at most 55 entries (R125, R131). -/

namespace Sys2Proof.Machine

/-! ### The lease table's events -/

/-- R32: a report grants a lease with its notice, or changes nothing. -/
theorem keepsNotices_reportLease (assured : Level) (i : SlotId) (s : State) :
    keepsNotices s (reportLease assured i s) := by
  unfold reportLease
  split
  · rename_i l h
    split
    · rename_i pending
      split
      · have continues : l.Continues l.grant := continues_of_live (live_of_pending pending) rfl
        exact fun law => noticeLaw_post_granted law h continues rfl
      · exact .refl s
    · rename_i held
      split
      · have continues : l.Continues { l with granted := some (l.wanted.lower assured) } :=
          continues_of_live (live_of_held held) rfl
        exact fun law => noticeLaw_post_granted law h continues rfl
      · exact .refl s
    · exact .refl s
  · exact .refl s

theorem keepsNotices_takeReport (d : Managed) (s : State) : keepsNotices s (takeReport d s) := by
  unfold takeReport
  split
  · have taken : Quiet s (s.setReport d none) := quiet_outside ⟨_, _, _, _, _, _, _, _, _, rfl⟩
    exact taken.keeps.trans (.foldl _ (fun t i => keepsNotices_reportLease _ i t) _ _)
  · exact .refl s

theorem keepsNotices_tickLease (s : State) (i : SlotId) : keepsNotices s (tickLease s i) := by
  unfold tickLease
  split
  · rename_i l h
    split
    · rename_i held
      split
      · exact keepsNotices_endLease _ _ s
      · exact (quiet_countdown h held _).keeps
    · exact .refl s
  · exact .refl s

theorem keepsNotices_takeExpiry (i : SlotId) (s : State) : keepsNotices s (takeExpiry i s) := by
  unfold takeExpiry
  split
  · rename_i l h
    split
    · rename_i held
      split
      · exact (quiet_countdown h held _).keeps
      · split
        · exact keepsNotices_endLease _ _ s
        · exact .refl s
    · exact .refl s
  · exact .refl s

/-- R34, R35: MODIFY keeps the holder, and an ended lease as it is. -/
theorem continues_modify (l : Lease) (level assured : Level) : l.Continues (l.modify level assured) := by
  unfold Lease.modify Lease.relevel
  split
  · exact .refl l
  · split
    · rename_i pending
      split <;> exact continues_of_live (live_of_pending pending) rfl
    · rename_i held
      exact continues_of_live (live_of_held held) rfl
    · exact .refl l

/-- R34, R35: MODIFY takes no granted level away. -/
theorem granted_of_modify_none {l : Lease} {level assured : Level} (none : (l.modify level assured).granted = none) :
    l.granted = .none := by
  unfold Lease.modify Lease.relevel at none
  split at none
  · exact none
  · split at none
    · split at none
      · cases none
      · exact none
    · cases none
    · exact none

/-- R127: MODIFY changes the granted level together with the queued GRANTED notice. -/
theorem keepsNotices_modifyLease {s : State} {i : SlotId} {l : Lease} (h : s.lease i = some l) (level : Level) :
    keepsNotices s (modifyLease i level l s).1 := by
  have continues := continues_modify l level (s.assuredOf l.domain)
  unfold modifyLease accept
  dsimp only
  split
  · rename_i g granted
    split
    · exact fun law => noticeLaw_relevelQueued law h continues granted
    · rename_i same
      exact (quiet_setLease h continues (granted.trans (not_not.1 same).symm)).keeps
  · rename_i none
    exact (quiet_setLease h continues (none.trans (granted_of_modify_none none).symm)).keeps

/-- R116, R118: a claim in RUN posts its WAKE notice to the line's agent. -/
theorem keepsNotices_wakeClaim {k : LineId} {s : State} (running : s.partState = .run) : keepsNotices s (wakeClaim k s) := by
  have settled := quiet_settleClaim k s
  obtain ⟨still, agents⟩ := settled.lines running
  exact fun law => noticeLaw_post_wake (settled.keeps law) still (agents k) _

theorem keepsNotices_takeEdge (k : LineId) (level : Bool) (s : State) : keepsNotices s (takeEdge k level s) := by
  unfold takeEdge
  split
  · split
    · rename_i edge
      have running : s.partState = .run := by
        by_contra notRunning
        simp [detectorActive_of_not_run notRunning] at edge
      have sampled : Quiet s (s.setWake k { s.wake k with baseline := some level }) := quiet_setWake rfl
      split
      · exact sampled.keeps.trans (keepsNotices_wakeClaim running)
      · exact sampled.keeps
    · exact .refl s
  · exact .refl s

theorem keepsNotices_takeTapWord (bits : List Bool) (s : State) : keepsNotices s (takeTapWord bits s) := by
  unfold takeTapWord
  split
  · exact .refl s
  · split
    · exact (quiet_matchAddress _ s).keeps
    · exact .refl s

/-- R83: a fault event ends leases, and posts its FAULT notice to A0. -/
theorem keepsNotices_faultEvent (d : Managed) (cause : FaultCause) (s : State) : keepsNotices s (faultEvent d cause s) := by
  intro law
  have cut := (quiet_moveSide (engineSide_cutAll d cause s).moveSide).keeps law
  have ended := keepsNotices_endAll ((cutState d cause s).list d) .fault _ cut
  refine noticeLaw_post_fault ?_ d cause
  exact keepsNotices.foldl _ (fun t e => keepsNotices_endAll (t.list e) .parentFault t) _ _ ended

theorem keepsNotices_takeFault (d : Managed) (cause : FaultCause) (s : State) : keepsNotices s (takeFault d cause s) :=
  (keepsNotices_faultEvent d cause s).trans (quiet_closeEvent _ s _).keeps

theorem Moves.keepsNotices_event {s t : State} (h : Moves s t) (order : List Managed) (old : State) :
    keepsNotices s (closeEvent order old t) := (h.quiet_event order old).keeps

theorem keepsNotices_endDrain {d : Managed} {s : State} (at_ : (s.engine d).state = .draining) :
    keepsNotices s (endDrain d s) := by
  unfold endDrain
  split
  · exact keepsNotices_takeFault d _ s
  · exact (moves_arrive_of_reaches (.drained at_)).keepsNotices_event _ s

/-! ### Requests -/

theorem keepsNotices_doAcquire (p : Agent) (body : List Byte) (s : State) : keepsNotices s (doAcquire p body s).1 := by
  unfold doAcquire
  split
  · exact .refl s
  · split
    · exact .refl s
    · split
      · exact .refl s
      · rename_i slot
        exact (quiet_placeLease (lease_lowestFree (sound_free_of_acquireSlot slot).2) _).keeps

theorem keepsNotices_doRenew (p : Agent) (body : List Byte) (s : State) : keepsNotices s (doRenew p body s).1 := by
  unfold doRenew
  split
  · exact .refl s
  · split
    · exact .refl s
    · rename_i own
      split
      · exact .refl s
      · split
        · exact .refl s
        · exact (quiet_renew (lease_of_ownLease own) _).keeps

theorem keepsNotices_doModify (p : Agent) (body : List Byte) (s : State) : keepsNotices s (doModify p body s).1 := by
  unfold doModify
  split
  · split
    · exact .refl s
    · split
      · exact .refl s
      · rename_i own
        split
        · exact .refl s
        · exact keepsNotices_modifyLease (lease_of_ownLease own) _
  · exact .refl s

theorem keepsNotices_doRelease (p : Agent) (body : List Byte) (s : State) : keepsNotices s (doRelease p body s).1 := by
  unfold doRelease
  split
  · exact .refl s
  · split
    · exact .refl s
    · exact keepsNotices_freeSlot _ s

/-- R132: the head leaves the queue, and an ENDED notice's slot is freed. -/
theorem keepsNotices_doTakeNotice (p : Agent) (body : List Byte) (s : State) :
    keepsNotices s (doTakeNotice p body s).1 := by
  unfold doTakeNotice
  split
  · exact .refl s
  · rename_i n rest queue
    intro law
    have taken : noticeLaw (s.setQueue p rest) := noticeLaw_sublist law (queue ▸ List.sublist_cons_self n rest)
    cases n with
    | ended h cause => exact keepsNotices_freeSlot h.slot _ taken
    | granted | wake | fault => exact taken

theorem keepsNotices_detachAgent (a : Agent) (s : State) : keepsNotices s (detachAgent a s) := fun law =>
  noticeLaw_sublist (keepsNotices_freeSlots _ s law) (List.nil_sublist _)

/-- In SETUP no WAKE notice stands, so the lines may be written. -/
theorem quiet_of_setup {s t : State} (setup : s.partState = .setup) (queues : t.queues = s.queues)
    (slots : t.slot = s.slot) : Quiet s t :=
  quiet_of_slots queues (fun i _ => congrFun slots i) fun running => by rw [setup] at running; cases running

theorem keepsNotices_doDefineDomain (p : Agent) (body : List Byte) {s : State} (setup : s.partState = .setup) :
    keepsNotices s (doDefineDomain p body s).1 := by
  unfold doDefineDomain
  split
  · exact .refl s
  · split
    · exact .refl s
    · exact (quiet_of_setup (t := s.setRecord _ _) setup rfl rfl).keeps

theorem keepsNotices_doDefineWake (p : Agent) (body : List Byte) {s : State} (setup : s.partState = .setup) :
    keepsNotices s (doDefineWake p body s).1 := by
  unfold doDefineWake
  split
  · exact .refl s
  · exact (quiet_of_setup (t := s.setWake _ _) setup rfl rfl).keeps

theorem quiet_setWindow (w : WindowId) (x : Window) (s : State) : Quiet s (s.setWindow w x) :=
  quiet_of_slots rfl (fun _ _ => rfl) fun running => ⟨running, fun _ => rfl⟩

theorem keepsNotices_doSetWindow (p : Agent) (body : List Byte) (s : State) : keepsNotices s (doSetWindow p body s).1 := by
  unfold doSetWindow
  split
  · exact .refl s
  · exact (quiet_setWindow _ _ s).keeps

theorem keepsNotices_doClearWindow (p : Agent) (body : List Byte) (s : State) :
    keepsNotices s (doClearWindow p body s).1 := by
  unfold doClearWindow
  split
  · exact .refl s
  · split
    · exact .refl s
    · exact (quiet_setWindow _ _ s).keeps

theorem keepsNotices_doSetWakeEnable (p : Agent) (body : List Byte) (s : State) :
    keepsNotices s (doSetWakeEnable p body s).1 := by
  unfold doSetWakeEnable
  split
  · exact .refl s
  · split
    · exact .refl s
    · dsimp only [accept]
      split
      · exact .refl s
      · rename_i k enable _ _ _
        have enabled : Quiet s (s.setWake k { s.wake k with enabled := enable, link := none }) := quiet_setWake rfl
        exact (enabled.trans (quiet_refreshDetectors _)).keeps

theorem keepsNotices_doStart (p : Agent) (body : List Byte) {s : State} (setup : s.partState = .setup) :
    keepsNotices s (doStart p body s).1 := by
  unfold doStart
  split
  · exact .refl s
  · split
    · exact .refl s
    · split
      · exact .refl s
      · have started : Quiet s { s with partState := .run } := quiet_of_setup setup rfl rfl
        exact (started.trans (quiet_refreshDetectors _)).keeps

/-- R134: RESTART empties every queue. -/
theorem keepsNotices_restartPart (s : State) : keepsNotices s (restartPart s) := by
  intro _
  have emptied : noticeLaw { emptyQueues (freeSlots s.usedSlots s) with partState := .stopping } :=
    noticeLaw_of_empty fun a => by simp [emptyQueues, State.queue]
  exact ((quiet_endStopping _).trans (quiet_refreshDetectors _)).keeps emptied

theorem keepsNotices_doRevoke (p : Agent) (body : List Byte) (s : State) : keepsNotices s (doRevoke p body s).1 := by
  unfold doRevoke
  split
  · exact .refl s
  · split
    · exact .refl s
    · split
      · exact .refl s
      · exact keepsNotices_endLease _ _ s

theorem keepsNotices_doEvict (p : Agent) (body : List Byte) (s : State) : keepsNotices s (doEvict p body s).1 := by
  unfold doEvict
  split
  · exact .refl s
  · exact keepsNotices_detachAgent _ s

theorem keepsNotices_clearFaultOf (d : Managed) (s : State) : keepsNotices s (clearFaultOf d s) := by
  have cleared : engineSide s (s.setEngine d { s.engine d with drainComplete := false }) := ⟨_, _, _, _, rfl⟩
  have arrived := cleared.trans (engineSide_arrive d .off _)
  exact ((quiet_moveSide arrived.moveSide).trans (quiet_closeEvent [d] s _)).keeps

theorem keepsNotices_doClearFault (p : Agent) (body : List Byte) (s : State) :
    keepsNotices s (doClearFault p body s).1 := by
  unfold doClearFault
  split
  · exact .refl s
  · split
    · exact .refl s
    · split
      · exact .refl s
      · split
        · exact .refl s
        · exact keepsNotices_clearFaultOf _ s

theorem keepsNotices_own (r : Request) (p : Agent) (body : List Byte) {s : State}
    (admitted : r.admission s.partState = none) : keepsNotices s (r.own p body s).1 := by
  have setup : admitSetup s.partState = none → s.partState = .setup := by unfold admitSetup; split <;> simp [*]
  cases r with
  | status => exact .refl s
  | queryDomain => exact (doQueryDomain_state p body s).symm ▸ .refl s
  | queryLease => exact (doQueryLease_state p body s).symm ▸ .refl s
  | listLeases => exact (doListLeases_state p body s).symm ▸ .refl s
  | queryWake => exact (doQueryWake_state p body s).symm ▸ .refl s
  | acquire => exact keepsNotices_doAcquire p body s
  | renew => exact keepsNotices_doRenew p body s
  | modify => exact keepsNotices_doModify p body s
  | release => exact keepsNotices_doRelease p body s
  | takeNotice => exact keepsNotices_doTakeNotice p body s
  | detach => exact keepsNotices_detachAgent p s
  | defineDomain => exact keepsNotices_doDefineDomain p body (setup admitted)
  | defineWake => exact keepsNotices_doDefineWake p body (setup admitted)
  | setWindow => exact keepsNotices_doSetWindow p body s
  | clearWindow => exact keepsNotices_doClearWindow p body s
  | setWakeEnable => exact keepsNotices_doSetWakeEnable p body s
  | start => exact keepsNotices_doStart p body (setup admitted)
  | restart => exact keepsNotices_restartPart s
  | revoke => exact keepsNotices_doRevoke p body s
  | evict => exact keepsNotices_doEvict p body s
  | clearFault => exact keepsNotices_doClearFault p body s

theorem keepsNotices_checked (r : Request) (p : Agent) (body : List Byte) (s : State) :
    keepsNotices s (checked r r.own p body s).1 := by
  unfold checked
  split
  · exact .refl s
  · rename_i taken
    exact keepsNotices_own r p body (admission_of_earlyRefusal taken)

/-! ### The end of an exchange -/

theorem keepsNotices_outside {s t : State} (h : outside s t) : keepsNotices s t := (quiet_outside h).keeps

theorem keepsNotices_frameEnd {own : Agent → List Byte → State → State × Reply} {p : Agent} {body : List Byte} {s : State}
    (h : keepsNotices s (own p body s).1) (seq : Byte) : keepsNotices s (frameEnd own p seq body s) := by
  have held (u : State) (x : Port) : keepsNotices u (u.setPort p x) :=
    keepsNotices_outside ⟨_, _, _, _, _, _, _, _, _, rfl⟩
  unfold frameEnd
  split
  · exact .refl s
  · split
    · exact held s _
    · split
      · exact .refl s
      · exact h.trans (held _ _)

theorem keepsNotices_request (r : Request) (p : Agent) (seq : Byte) (body : List Byte) (s : State) :
    keepsNotices s (frameEnd (checked r r.own) p seq body s) :=
  keepsNotices_frameEnd (keepsNotices_checked r p body s) seq

theorem keepsNotices_byCode (code : Byte) (p : Agent) (seq : Byte) (body : List Byte) (s : State) :
    keepsNotices s (frameEnd (requestByCode code) p seq body s) := by
  refine keepsNotices_frameEnd ?_ seq
  unfold requestByCode
  split
  · exact keepsNotices_checked _ p body s
  · exact .refl s

theorem keepsNotices_exchangeEnd (p : Agent) (bits : List Bool) (s : State) : keepsNotices s (exchangeEnd p bits s) := by
  unfold exchangeEnd
  split
  · exact .refl s
  · split
    · exact keepsNotices_outside ⟨_, _, _, _, _, _, _, _, _, rfl⟩
    · exact .refl s
  · exact keepsNotices_byCode _ p _ _ s

/-! ### Events -/

/-- An event that is taken in some states alone. -/
theorem keepsNotices_guarded {c : Prop} [Decidable c] {s t : State} (h : c → keepsNotices s t) :
    keepsNotices s (if c then t else s) := by
  split
  · exact h ‹_›
  · exact .refl s

/-- An event that a held reset shuts out. -/
theorem keepsNotices_unlessHeld {s t : State} (h : keepsNotices s t) :
    keepsNotices s (if s.resetHeld = true then s else t) := by
  split
  · exact .refl s
  · exact h

/-- An input takes its level, and the event acts on it unless a reset is held. -/
theorem keepsNotices_input {s u t : State} (input : outside s u) (h : keepsNotices u t) :
    keepsNotices s (if s.resetHeld = true then u else t) := by
  split
  · exact keepsNotices_outside input
  · exact (keepsNotices_outside input).trans h

/-- R51: an expiry is taken in its timed state. -/
theorem keepsNotices_onExpiry {st : EngineState} {d : Managed} {effect : State → State} {s : State}
    (h : (s.engine d).state = st → keepsNotices s (effect s)) : keepsNotices s (onExpiry st d effect s) := by
  refine keepsNotices_guarded fun due => h ?_
  have expiry := due.2
  simp only [State.expiryDue, Bool.and_eq_true, beq_iff_eq] at expiry
  exact expiry.1

theorem quiet_lowerTimers (s : State) : Quiet s (lowerTimers s) := quiet_moveSide ⟨_, _, _, _, _, rfl⟩

/-- R169: after a part reset every queue is empty. -/
theorem keepsNotices_resetPart (s : State) : keepsNotices s (resetPart s) := fun _ =>
  noticeLaw_of_empty fun a => by simp [resetPart, logPins, State.reset, State.queue]

theorem keepsNotices_exec {c : Instr} {s t : State} (h : exec c s = .next t) : keepsNotices s t := by
  cases c
  all_goals rw [← next_injective h]
  case status p seq body => exact keepsNotices_request .status p seq body s
  case queryDomain p seq body => exact keepsNotices_request .queryDomain p seq body s
  case queryLease p seq body => exact keepsNotices_request .queryLease p seq body s
  case listLeases p seq body => exact keepsNotices_request .listLeases p seq body s
  case acquire p seq body => exact keepsNotices_request .acquire p seq body s
  case renew p seq body => exact keepsNotices_request .renew p seq body s
  case modify p seq body => exact keepsNotices_request .modify p seq body s
  case release p seq body => exact keepsNotices_request .release p seq body s
  case takeNotice p seq body => exact keepsNotices_request .takeNotice p seq body s
  case detach p seq body => exact keepsNotices_request .detach p seq body s
  case defineDomain p seq body => exact keepsNotices_request .defineDomain p seq body s
  case defineWake p seq body => exact keepsNotices_request .defineWake p seq body s
  case setWindow p seq body => exact keepsNotices_request .setWindow p seq body s
  case clearWindow p seq body => exact keepsNotices_request .clearWindow p seq body s
  case setWakeEnable p seq body => exact keepsNotices_request .setWakeEnable p seq body s
  case queryWake p seq body => exact keepsNotices_request .queryWake p seq body s
  case start p seq body => exact keepsNotices_request .start p seq body s
  case restart p seq body => exact keepsNotices_request .restart p seq body s
  case revoke p seq body => exact keepsNotices_request .revoke p seq body s
  case evict p seq body => exact keepsNotices_request .evict p seq body s
  case clearFault p seq body => exact keepsNotices_request .clearFault p seq body s
  case unknownRequest p seq code body => exact keepsNotices_byCode code p seq body s
  case retransmission p seq code body => exact keepsNotices_byCode code p seq body s
  case badFrame p bits => exact keepsNotices_exchangeEnd p bits s
  case idleExchange p bits => exact keepsNotices_exchangeEnd p bits s
  case tapWord bits => exact keepsNotices_takeTapWord bits s
  case lineEvent k b => exact keepsNotices_input (outside_setLine k b s) (keepsNotices_takeEdge k b _)
  case pgoodAsserted d =>
    exact keepsNotices_input (outside_setPgood d _ s)
      (keepsNotices_guarded fun h => (moves_seePgood h.1).keepsNotices_event _ _)
  case pgoodDeasserted d =>
    exact keepsNotices_input (outside_setPgood d _ s) (keepsNotices_guarded fun _ => keepsNotices_takeFault d _ _)
  case ckokAsserted d =>
    exact keepsNotices_input (outside_setCkok d _ s)
      (keepsNotices_guarded fun h => (moves_arrive_of_reaches (.clock h.1 h.2)).keepsNotices_event _ _)
  case ckokDeasserted d =>
    exact keepsNotices_input (outside_setCkok d _ s) (keepsNotices_guarded fun _ => keepsNotices_takeFault d _ _)
  case tick =>
    have ticked : keepsNotices s (tickLeases s) := .foldl _ keepsNotices_tickLease _ s
    exact keepsNotices_unlessHeld (ticked.trans (quiet_lowerTimers _).keeps)
  case leaseExpiry i =>
    exact keepsNotices_unlessHeld ((quiet_settleMarks s).keeps.trans (keepsNotices_takeExpiry i _))
  case railUpExpiry d => exact keepsNotices_onExpiry fun _ => keepsNotices_takeFault d _ s
  case settleExpiry d =>
    exact keepsNotices_onExpiry fun at_ => (moves_endSettle (by rw [at_]; rfl)).keepsNotices_event _ s
  case clockUpExpiry d => exact keepsNotices_onExpiry fun _ => keepsNotices_takeFault d _ s
  case boostUpExpiry d =>
    exact keepsNotices_onExpiry fun at_ => (moves_arrive_of_reaches (.boost at_)).keepsNotices_event _ s
  case boostDownExpiry d =>
    exact keepsNotices_onExpiry fun at_ => (moves_arrive_of_reaches (.run at_)).keepsNotices_event _ s
  case drainEnd d => exact keepsNotices_onExpiry keepsNotices_endDrain
  case faultDrainExpiry d =>
    exact keepsNotices_onExpiry fun at_ => (Move.complete at_).moves.keepsNotices_event _ s
  case stepBegin d => exact keepsNotices_unlessHeld ((moves_takeStep d s).keepsNotices_event _ s)
  case rampGrant => exact keepsNotices_unlessHeld ((moves_grantChain _ s).keepsNotices_event _ s)
  case levelReachedReport d => exact keepsNotices_unlessHeld (keepsNotices_takeReport d s)
  case partReset => exact keepsNotices_resetPart s
  case partResetRelease cs tfrm =>
    exact keepsNotices_guarded fun _ => keepsNotices_outside ⟨_, _, _, _, _, _, _, _, _, rfl⟩
  case chipSelectDeasserted p =>
    exact keepsNotices_unlessHeld (keepsNotices_outside ⟨_, _, _, _, _, _, _, _, _, rfl⟩)
  case tfrmDeasserted =>
    exact keepsNotices_unlessHeld (keepsNotices_outside ⟨_, _, _, _, _, _, _, _, _, rfl⟩)

theorem keepsNotices_step {s t : State} (h : step s = .next t) : keepsNotices s t := by
  unfold step at h
  split at h
  · rw [← next_injective h]; exact .refl s
  · rename_i c rest _
    have taken : outside s { s with pending := rest } := ⟨_, _, _, _, _, _, _, _, _, rfl⟩
    exact (keepsNotices_outside taken).trans (keepsNotices_exec h)

/-! ### The bound of a queue (R131) -/

/-- R131: the kinds and identities that an agent's queue may hold: two for each of its slots, one for each line and one for
each managed domain. -/
def State.noticeKeys (s : State) (a : Agent) : List NoticeKey :=
  (s.slotsOf a).map .granted ++ (s.slotsOf a).map .ended ++ allLines.map .wake ++ allManaged.map .fault

theorem mem_slotsOf {s : State} {a : Agent} {i : SlotId} {l : Lease} (h : s.lease i = some l) (holder : l.holder = a) :
    i ∈ s.slotsOf a :=
  List.mem_filter.2 ⟨mem_allSlots i, by simp [h, holder]⟩

theorem key_mem_noticeKeys {s : State} {a : Agent} {n : Notice} (stands : noticeStands s a n = true) :
    n.key ∈ s.noticeKeys a := by
  simp only [State.noticeKeys, List.mem_append]
  cases n with
  | granted h level =>
    obtain ⟨l, lease, holder⟩ := holder_of_stands stands rfl
    exact .inl (.inl (.inl (List.mem_map_of_mem (mem_slotsOf lease holder))))
  | ended h cause =>
    obtain ⟨l, lease, holder⟩ := holder_of_stands stands rfl
    exact .inl (.inl (.inr (List.mem_map_of_mem (mem_slotsOf lease holder))))
  | wake k count outcome => exact .inl (.inr (List.mem_map_of_mem (mem_allLines k)))
  | fault d cause count => exact .inr (List.mem_map_of_mem (mem_allManaged d))

/-- 16 slots, 8 lines and 15 domains: 2 · 16 + 8 + 15 = 55. -/
theorem length_noticeKeys_le {s : State} (quota : quotaLaw s) (a : Agent) : (s.noticeKeys a).length ≤ 55 := by
  have slots : (s.slotsOf a).length ≤ 16 := quota a
  have lines : allLines.length = 8 := rfl
  have domains : allManaged.length = 15 := rfl
  simp only [State.noticeKeys, List.length_append, List.length_map]
  omega

/-- R131: a queue has no more entries than kinds and identities. -/
theorem queueBound_of_laws {s : State} (law : noticeLaw s) (quota : quotaLaw s) : queueBound s := by
  intro a
  obtain ⟨nodup, stands⟩ := law a
  have known : (s.queue a).map Notice.key ⊆ s.noticeKeys a := by
    intro key mem
    obtain ⟨n, queued, rfl⟩ := List.mem_map.1 mem
    exact key_mem_noticeKeys (stands n queued)
  calc (s.queue a).length = ((s.queue a).map Notice.key).length := (List.length_map _).symm
    _ ≤ (s.noticeKeys a).length := (nodup.subperm known).length_le
    _ ≤ 55 := length_noticeKeys_le quota a

/-- Settles O54: every operation is `Quiet`, posts a notice that stands, or takes the notices of what it frees with it; and
`State.noticeKeys` counts the entries. -/
theorem noticeQueuesNeverRepeat : Obligations.NoticeQueuesNeverRepeat :=
  ⟨fun _ _ law h => keepsNotices_step h law, fun _ => queueBound_of_laws⟩

end Sys2Proof.Machine
end

section
/-! TAKE_NOTICE: the head of the agent's own queue, and the slot that an ENDED notice frees (R41, R132, R162). -/

namespace Sys2Proof.Machine

/-- R39: a FREE slot is in no list, watches no window, has no link and no notice, so its freeing leaves the part. -/
theorem withFreed_free {i : SlotId} {s : State} (free : s.lease i = none) : withFreed (fun j => j == i) s = s := by
  have dead : s.liveAt i = false := by simp [State.liveAt, free]
  obtain ⟨off, unwatched⟩ := not_live_reads dead
  have never : ∀ {f : SlotId → Bool}, f i = false → ∀ j, (j == i && f j) = false := by
    intro f none j
    by_cases here : j = i
    · rw [here, none, Bool.and_false]
    · rw [beq_false_of_ne here, Bool.false_and]
  refine (leaseSide_withFreed _ s).ext (.refl s) (fun j => ?_) (fun d => ?_) (fun w => ?_) (fun k => ?_) (fun a => ?_)
  · have taken := never (f := fun j => (s.lease j).isSome) (by simp [free])
    simp only [slot_withFreed, taken, Bool.false_eq_true, if_false]
  · simp [list_withFreed, never (off d)]
  · simp [window_withFreed, never (unwatched w)]
  · have linked : ∀ h : Handle, (h.slot == i && s.liveAt h.slot) = false := fun h => never dead h.slot
    simp [wake_withFreed, linked]
  · have holds := never (f := fun j => (s.lease j).any fun l => l.holder == a) (by simp [free])
    simp [queue_withFreed, holds]

/-- R39: the freeing of any one slot. -/
theorem freeSlot_eq (i : SlotId) (s : State) : freeSlot i s = withFreed (fun j => j == i) s := by
  cases h : s.lease i with
  | none => rw [freeSlot_free h, withFreed_free h]
  | some l => exact freeSlot_eq_withFreed h

/-- R132, R139: TAKE_NOTICE is taken from every agent in every part state, and answered as its owner says. -/
theorem exec_takeNotice {s : State} {p : Agent} {seq : Byte} (executes : s.executes p seq = true) :
    exec (.takeNotice p seq []) s =
      .next (answer p seq (doTakeNotice p [] s).2.status (doTakeNotice p [] s).2.body (doTakeNotice p [] s).1) := by
  have passes : checked .takeNotice doTakeNotice p [] s = doTakeNotice p [] s :=
    checked_taken doTakeNotice (fun supervisor => by cases supervisor) rfl rfl
  have run : exec (.takeNotice p seq []) s = .next (frameEnd (checked .takeNotice doTakeNotice) p seq [] s) := rfl
  rw [run, frameEnd_executes _ executes (by simp), passes]

/-- R132: a request on an empty queue. -/
theorem doTakeNotice_nil {s : State} {p : Agent} (queue : s.queue p = []) (body : List Byte) :
    doTakeNotice p body s = accept [0] s := by
  simp only [doTakeNotice, queue]

/-- R132: the head leaves, and the reply counts what is left after its effect. -/
theorem doTakeNotice_cons {s : State} {p : Agent} {n : Notice} {rest : List Notice} (queue : s.queue p = n :: rest)
    (body : List Byte) : doTakeNotice p body s =
      accept (byteOf ((takenEffect n (s.setQueue p rest)).queue p).length :: noticeEntry n)
        (takenEffect n (s.setQueue p rest)) := by
  simp only [doTakeNotice, queue]

/-- R41: only an ENDED notice has an effect beyond the queue. -/
theorem takenEffect_of_not_ended {n : Notice} (other : ∀ h cause, n ≠ .ended h cause) (s : State) :
    takenEffect n s = s := by
  cases n with
  | ended h cause => exact absurd rfl (other h cause)
  | granted | wake | fault => rfl

/-- Settles O25: the request is its owner's (`exec_takeNotice`), whose answer follows the head of the queue; `freeSlot_eq`
gives what an ENDED notice frees. -/
theorem takeNoticeTakesTheHead : Obligations.TakeNoticeTakesTheHead := by
  intro s p seq executes
  rw [exec_takeNotice executes]
  refine ⟨fun empty => ?_, fun n rest queue other => ?_, fun h cause rest queue => ?_⟩
  · rw [doTakeNotice_nil empty]
    rfl
  · rw [doTakeNotice_cons queue, takenEffect_of_not_ended other, queue_setQueue_self]
    rfl
  · have freed : takenEffect (.ended h cause) (s.setQueue p rest) =
        withFreed (fun i => i == h.slot) (s.setQueue p rest) := freeSlot_eq h.slot _
    rw [doTakeNotice_cons queue, freed]
    rfl

end Sys2Proof.Machine
end

section
/-! An executed request at a port: refused by an early check of the decoder, or answered as its owner says (R138 to R143,
R170, R171). -/

namespace Sys2Proof.Machine

section
variable {s s' : State} {r : Request} {p : Agent} {seq : Byte} {body reply : List Byte} {st : Status}

/-- R138: a request's row is the end of the frame that carries it. -/
theorem exec_command (r : Request) (p : Agent) (seq : Byte) (body : List Byte) (s : State) :
    exec (r.command p seq body) s = .next (frameEnd (checked r r.own) p seq body s) := by
  cases r <;> rfl

/-- R139, R140: an executed request that an early check refuses. -/
theorem exec_refused (executes : s.executes p seq = true) (fits : body.length ≤ 60)
    (early : s.earlyRefusal r p body = some st) :
    exec (r.command p seq body) s = .next (answer p seq st [] s) := by
  rw [exec_command, frameEnd_executes _ executes fits, checked_refused _ early]
  rfl

/-- R139: an executed request that passes the early checks is answered as its owner says. -/
theorem exec_own (executes : s.executes p seq = true) (sender : r.supervisor = true → p = 0)
    (admitted : r.admission s.partState = none) (length : body.length = r.bodyLength)
    (own : r.own p body s = (s', { status := st, body := reply })) :
    exec (r.command p seq body) s = .next (answer p seq st reply s') := by
  rw [exec_command, frameEnd_executes _ executes (length ▸ bodyLength_le r), checked_taken _ sender admitted length, own]

/-- R141: a request that every agent may send. -/
theorem exec_agent (executes : s.executes p seq = true) (agent : r.supervisor = false)
    (admitted : r.admission s.partState = none) (length : body.length = r.bodyLength)
    (own : r.own p body s = (s', { status := st, body := reply })) :
    exec (r.command p seq body) s = .next (answer p seq st reply s') :=
  exec_own executes (fun supervisor => absurd (agent.symm.trans supervisor) Bool.false_ne_true) admitted length own

/-- R141: a request that A0 sends. -/
theorem exec_supervisor (executes : s.executes 0 seq = true) (admitted : r.admission s.partState = none)
    (length : body.length = r.bodyLength) (own : r.own 0 body s = (s', { status := st, body := reply })) :
    exec (r.command 0 seq body) s = .next (answer 0 seq st reply s') :=
  exec_own executes (fun _ => rfl) admitted length own

/-- R142, R170: an executed request that the part state does not take. -/
theorem exec_not_admitted (executes : s.executes p seq = true) (fits : body.length ≤ 60)
    (sender : r.supervisor = true → p = 0) (refused : r.admission s.partState = some st) :
    exec (r.command p seq body) s = .next (answer p seq st [] s) :=
  exec_refused executes fits (earlyRefusal_admission body sender refused)

/-- R143: an executed request with a body of another length. -/
theorem exec_badLength (executes : s.executes p seq = true) (fits : body.length ≤ 60)
    (sender : r.supervisor = true → p = 0) (admitted : r.admission s.partState = none)
    (length : body.length ≠ r.bodyLength) :
    exec (r.command p seq body) s = .next (answer p seq .badLength [] s) :=
  exec_refused executes fits (earlyRefusal_length sender admitted length)

/-- R141: an executed frame whose code names no request. -/
theorem exec_unknownRequest {code : Byte} (executes : s.executes p seq = true) (fits : body.length ≤ 60)
    (unknown : ∀ r : Request, r.code ≠ code) :
    exec (.unknownRequest p seq code body) s = .next (answer p seq .unknownRequest [] s) := by
  have run : exec (.unknownRequest p seq code body) s = .next (frameEnd (requestByCode code) p seq body s) := rfl
  have refused : requestByCode code p body s = refuse .unknownRequest s := by
    rw [requestByCode, ofCode_eq_none unknown]
  rw [run, frameEnd_executes _ executes fits, refused]
  rfl

end

/-- R190: a frame whose bytes end before its check byte is bad. -/
theorem classifyExchange_short {seq code len : Byte} {rest : List Byte} (short : rest.length < len.toNat + 1) :
    classifyExchange (0xA5 :: seq :: code :: len :: rest) = .bad seq := by
  have marked : classifyExchange (0xA5 :: seq :: code :: len :: rest) = classifyFrame (seq :: code :: len :: rest) := rfl
  rw [marked, classifyFrame, if_pos short, ite_self]

/-- Settles O11: each clause names an early check (`exec_unknownRequest`, `earlyRefusal_sender`, `exec_not_admitted`), and
the requests of a clause share the column of the decoder's tables that it reads. -/
theorem decoderChecksInOrder : Obligations.DecoderChecksInOrder := by
  intro s p seq body executes fits
  have outsideSetup : s.partState ≠ .setup → admitSetup s.partState = some .notInSetup := fun other => if_neg other
  have outsideRun : s.partState ≠ .run → admitRun s.partState = some .notRunning := fun other => if_neg other
  have stopped : s.partState = .stopping → admitUnlessStopping s.partState = some .notRunning := fun stopping => if_pos stopping
  refine ⟨fun code unknown => exec_unknownRequest executes fits unknown, fun other r mem => ?_,
    fun part sender r mem => ?_, fun part r mem => ?_, fun part sender r mem => ?_, fun part => ?_,
    fun part sender r mem => ?_⟩
  · have supervisor : ∀ r ∈ [Request.defineDomain, .defineWake, .setWindow, .clearWindow, .setWakeEnable, .queryWake,
        .start, .restart, .revoke, .evict, .clearFault], r.supervisor = true := by decide
    exact exec_refused executes fits (earlyRefusal_sender s body (supervisor r mem) other)
  · have column : ∀ r ∈ [Request.defineDomain, .defineWake, .start], r.admission = admitSetup := by simp [Request.admission]
    exact exec_not_admitted executes fits (fun _ => sender) (column r mem ▸ outsideSetup part)
  · have column : ∀ r ∈ [Request.acquire, .renew, .modify, .release], r.admission = admitRun ∧ r.supervisor = false := by
      simp [Request.admission, Request.supervisor]
    obtain ⟨admission, agent⟩ := column r mem
    exact exec_not_admitted executes fits (by simp [agent]) (admission ▸ outsideRun part)
  · have column : ∀ r ∈ [Request.setWakeEnable, .restart, .revoke, .evict], r.admission = admitRun := by
      simp [Request.admission]
    exact exec_not_admitted executes fits (fun _ => sender) (column r mem ▸ outsideRun part)
  · exact exec_not_admitted (r := .detach) executes fits (by simp [Request.supervisor]) (stopped part)
  · have column : ∀ r ∈ [Request.setWindow, .clearWindow, .clearFault], r.admission = admitUnlessStopping := by
      simp [Request.admission]
    exact exec_not_admitted executes fits (fun _ => sender) (column r mem ▸ stopped part)

/-- Settles O12: the tables' lengths are those of `Request.bodyLength`, so `exec_badLength` answers for each of their rows. -/
theorem bodyLengthsAreFixed : Obligations.BodyLengthsAreFixed := by
  refine ⟨fun s p seq body executes fits q mem admitted length => ?_,
    fun s seq body executes fits q mem admitted length => ?_, fun _ _ _ _ => classifyExchange_short⟩
  · have row : ∀ q ∈ [(Request.status, 0), (Request.queryDomain, 1), (Request.queryLease, 2), (Request.listLeases, 1),
        (Request.acquire, 8), (Request.renew, 4), (Request.modify, 3), (Request.release, 2), (Request.takeNotice, 0),
        (Request.detach, 0)], q.2 = q.1.bodyLength ∧ q.1.supervisor = false := by decide
    obtain ⟨own, agent⟩ := row q mem
    exact exec_badLength executes fits (by simp [agent]) admitted (own ▸ length)
  · have row : ∀ q ∈ [(Request.defineDomain, 10), (Request.defineWake, 10), (Request.setWindow, 10),
        (Request.clearWindow, 1), (Request.setWakeEnable, 2), (Request.queryWake, 1), (Request.start, 0),
        (Request.restart, 0), (Request.revoke, 2), (Request.evict, 1), (Request.clearFault, 1)],
        q.2 = q.1.bodyLength := by decide
    exact exec_badLength executes fits (fun _ => rfl) admitted (row q mem ▸ length)

end Sys2Proof.Machine
end

section
/-! Refusals: every request that is not answered OK leaves the part as it was, with a body of the length that its status
has (R140, R200). -/

namespace Sys2Proof.Machine

/-- R140: the bytes in the body of a refusal: an end cause, a users count, or a kind and a number. -/
def Status.refusalLength : Status → Nat
  | .leaseEnded => 1
  | .windowInUse => 1
  | .badConfig => 2
  | _ => 0

/-- R140: an answer to a request in state s that is OK, or that leaves s and has its status's body length. -/
def Refuses (s : State) (x : State × Reply) : Prop :=
  x.2.status ≠ .ok → x.1 = s ∧ x.2.body.length = x.2.status.refusalLength

section
variable {s : State} {st : Status}

theorem refuses_refuse (plain : st.refusalLength = 0) : Refuses s (refuse st s) := fun _ => ⟨rfl, plain.symm⟩

theorem refuses_refuseWith {body : List Byte} (length : body.length = st.refusalLength) :
    Refuses s (refuseWith st body s) := fun _ => ⟨rfl, length⟩

theorem refuses_accept (body : List Byte) (t : State) : Refuses s (accept body t) := fun refused => absurd rfl refused

/-! ### The statuses that the checks answer -/

/-- R139: the early checks answer statuses without a body. -/
theorem refusalLength_of_earlyRefusal {r : Request} {p : Agent} {body : List Byte}
    (early : s.earlyRefusal r p body = some st) : st.refusalLength = 0 := by
  have admission : r.admission s.partState = some st → st.refusalLength = 0 := by
    cases r <;> cases s.partState <;> intro h <;> cases h <;> rfl
  unfold State.earlyRefusal at early
  split at early
  · cases early; rfl
  · split at early
    · rename_i refused
      exact admission (refused.trans early)
    · split at early <;> cases early
      rfl

theorem refusalLength_of_acquireMeaning {f : AcquireFields} (h : acquireMeaning s f = .error st) :
    st.refusalLength = 0 := by
  unfold acquireMeaning at h
  repeat' split at h
  all_goals cases h
  all_goals rfl

theorem refusalLength_of_acquireSlot {p : Agent} {d : Managed} (h : acquireSlot s p d = .error st) :
    st.refusalLength = 0 := by
  unfold acquireSlot at h
  repeat' split at h
  all_goals cases h
  all_goals rfl

theorem refusalLength_of_ownLease {p : Agent} {h : Handle} (own : ownLease s p h = .error st) : st.refusalLength = 0 := by
  unfold ownLease at own
  repeat' split at own
  all_goals cases own
  all_goals rfl

theorem refusalLength_of_clearFaultDomain {body : List Byte} (h : clearFaultDomain s body = .error st) :
    st.refusalLength = 0 := by
  unfold clearFaultDomain at h
  repeat' split at h
  all_goals cases h
  all_goals rfl

/-! ### The owners -/

theorem refuses_doQueryDomain (p : Agent) (body : List Byte) (s : State) : Refuses s (doQueryDomain p body s) := by
  unfold doQueryDomain
  split
  · exact refuses_refuse rfl
  · split <;> exact refuses_accept _ _

theorem refuses_doQueryLease (p : Agent) (body : List Byte) (s : State) : Refuses s (doQueryLease p body s) := by
  unfold doQueryLease
  split
  · exact refuses_refuse rfl
  · split
    · exact refuses_refuse rfl
    · exact refuses_accept _ _

theorem refuses_doListLeases (p : Agent) (body : List Byte) (s : State) : Refuses s (doListLeases p body s) := by
  unfold doListLeases
  split
  · exact refuses_refuse rfl
  · split <;> exact refuses_accept _ _

theorem refuses_doAcquire (p : Agent) (body : List Byte) (s : State) : Refuses s (doAcquire p body s) := by
  unfold doAcquire
  split
  · exact refuses_refuse rfl
  · split
    · rename_i meaning
      exact refuses_refuse (refusalLength_of_acquireMeaning meaning)
    · split
      · rename_i slot
        exact refuses_refuse (refusalLength_of_acquireSlot slot)
      · exact refuses_accept _ _

theorem refuses_doRenew (p : Agent) (body : List Byte) (s : State) : Refuses s (doRenew p body s) := by
  unfold doRenew
  split
  · exact refuses_refuse rfl
  · split
    · rename_i own
      exact refuses_refuse (refusalLength_of_ownLease own)
    · split
      · exact refuses_refuseWith rfl
      · split
        · exact refuses_refuse rfl
        · exact refuses_accept _ _

theorem refuses_doModify (p : Agent) (body : List Byte) (s : State) : Refuses s (doModify p body s) := by
  unfold doModify
  split
  · split
    · exact refuses_refuse rfl
    · split
      · rename_i own
        exact refuses_refuse (refusalLength_of_ownLease own)
      · split
        · exact refuses_refuseWith rfl
        · exact refuses_accept _ _
  · exact refuses_refuse rfl

theorem refuses_doRelease (p : Agent) (body : List Byte) (s : State) : Refuses s (doRelease p body s) := by
  unfold doRelease
  split
  · exact refuses_refuse rfl
  · split
    · rename_i own
      exact refuses_refuse (refusalLength_of_ownLease own)
    · exact refuses_accept _ _

theorem refuses_doTakeNotice (p : Agent) (body : List Byte) (s : State) : Refuses s (doTakeNotice p body s) := by
  unfold doTakeNotice
  split <;> exact refuses_accept _ _

theorem refuses_doDefineDomain (p : Agent) (body : List Byte) (s : State) : Refuses s (doDefineDomain p body s) := by
  unfold doDefineDomain
  split
  · exact refuses_refuse rfl
  · split
    · exact refuses_refuse rfl
    · exact refuses_accept _ _

theorem refuses_doDefineWake (p : Agent) (body : List Byte) (s : State) : Refuses s (doDefineWake p body s) := by
  unfold doDefineWake
  split
  · exact refuses_refuse rfl
  · exact refuses_accept _ _

theorem refuses_doSetWindow (p : Agent) (body : List Byte) (s : State) : Refuses s (doSetWindow p body s) := by
  unfold doSetWindow
  split
  · exact refuses_refuse rfl
  · exact refuses_accept _ _

theorem refuses_doClearWindow (p : Agent) (body : List Byte) (s : State) : Refuses s (doClearWindow p body s) := by
  unfold doClearWindow
  split
  · exact refuses_refuse rfl
  · split
    · exact refuses_refuseWith rfl
    · exact refuses_accept _ _

theorem refuses_doSetWakeEnable (p : Agent) (body : List Byte) (s : State) : Refuses s (doSetWakeEnable p body s) := by
  unfold doSetWakeEnable
  split
  · exact refuses_refuse rfl
  · split
    · exact refuses_refuseWith rfl
    · exact refuses_accept _ _

theorem refuses_doQueryWake (p : Agent) (body : List Byte) (s : State) : Refuses s (doQueryWake p body s) := by
  unfold doQueryWake
  split
  · exact refuses_refuse rfl
  · exact refuses_accept _ _

theorem refuses_doStart (p : Agent) (body : List Byte) (s : State) : Refuses s (doStart p body s) := by
  unfold doStart
  split
  · exact refuses_refuse rfl
  · split
    · exact refuses_refuseWith rfl
    · split
      · exact refuses_refuseWith rfl
      · exact refuses_accept _ _

theorem refuses_doRevoke (p : Agent) (body : List Byte) (s : State) : Refuses s (doRevoke p body s) := by
  unfold doRevoke
  split
  · exact refuses_refuse rfl
  · split
    · exact refuses_refuse rfl
    · split
      · exact refuses_refuseWith rfl
      · exact refuses_accept _ _

theorem refuses_doEvict (p : Agent) (body : List Byte) (s : State) : Refuses s (doEvict p body s) := by
  unfold doEvict
  split
  · exact refuses_refuse rfl
  · exact refuses_accept _ _

theorem refuses_doClearFault (p : Agent) (body : List Byte) (s : State) : Refuses s (doClearFault p body s) := by
  unfold doClearFault
  split
  · rename_i domain
    exact refuses_refuse (refusalLength_of_clearFaultDomain domain)
  · split_ifs
    · exact refuses_refuse rfl
    · exact refuses_refuse rfl
    · exact refuses_refuse rfl
    · exact refuses_accept _ _

/-! ### A request at a port -/

theorem refuses_own (r : Request) (p : Agent) (body : List Byte) (s : State) : Refuses s (r.own p body s) := by
  cases r with
  | status => exact refuses_accept _ _
  | queryDomain => exact refuses_doQueryDomain p body s
  | queryLease => exact refuses_doQueryLease p body s
  | listLeases => exact refuses_doListLeases p body s
  | acquire => exact refuses_doAcquire p body s
  | renew => exact refuses_doRenew p body s
  | modify => exact refuses_doModify p body s
  | release => exact refuses_doRelease p body s
  | takeNotice => exact refuses_doTakeNotice p body s
  | detach => exact refuses_accept _ _
  | defineDomain => exact refuses_doDefineDomain p body s
  | defineWake => exact refuses_doDefineWake p body s
  | setWindow => exact refuses_doSetWindow p body s
  | clearWindow => exact refuses_doClearWindow p body s
  | setWakeEnable => exact refuses_doSetWakeEnable p body s
  | queryWake => exact refuses_doQueryWake p body s
  | start => exact refuses_doStart p body s
  | restart => exact refuses_accept _ _
  | revoke => exact refuses_doRevoke p body s
  | evict => exact refuses_doEvict p body s
  | clearFault => exact refuses_doClearFault p body s

theorem refuses_checked (r : Request) (p : Agent) (body : List Byte) (s : State) :
    Refuses s (checked r r.own p body s) := by
  unfold checked
  split
  · rename_i early
    exact refuses_refuse (refusalLength_of_earlyRefusal early)
  · exact refuses_own r p body s

end

/-- R194: an answer is the port's held reply. -/
theorem held_answer (p : Agent) (seq : Byte) (st : Status) (body : List Byte) (s : State) :
    ((answer p seq st body s).port p).held = { echo := seq, status := st, body := body } := by
  simp [answer, State.port]

/-- Settles O13: the port holds what the checked request answers (`held_answer`), and a refusal leaves the state it was
answered in (`refuses_checked`). -/
theorem refusalChangesOnlyThePort : Obligations.RefusalChangesOnlyThePort := by
  intro s t r p seq body executes fits run refused
  rw [exec_command, frameEnd_executes _ executes fits] at run
  obtain rfl := next_injective run
  rw [held_answer] at refused ⊢
  obtain ⟨same, length⟩ := refuses_checked r p body s refused
  exact ⟨by rw [same], length⟩

end Sys2Proof.Machine
end

section
/-! Fields out of range: a byte that decodes is its value's number, so a byte outside the range of its field decodes to none
and its request is refused BAD_VALUE (R144, R152, R172 to R177, R186). -/

namespace Sys2Proof.Machine

/-! ### What a byte that decodes is -/

section
variable {b : Byte}

theorem toNat_of_decodeDomain {d : Domain} (h : decodeDomain b = some d) : b.toNat = d.val := by
  unfold decodeDomain at h
  split at h <;> cases h
  rfl

theorem toNat_of_decodeManaged {d : Managed} (h : decodeManaged b = some d) : b.toNat = d.val + 1 := by
  obtain ⟨e, domain, managed⟩ := Option.bind_eq_some_iff.1 h
  rw [toNat_of_decodeDomain domain, asManaged_eq_some.1 managed, val_managedDomain]

theorem toNat_of_decodeAgent {a : Agent} (h : decodeAgent b = some a) : b.toNat = a.val := by
  unfold decodeAgent at h
  split at h <;> cases h
  rfl

theorem toNat_of_decodeWindow {w : WindowId} (h : decodeWindow b = some w) : b.toNat = w.val := by
  unfold decodeWindow at h
  split at h <;> cases h
  rfl

theorem toNat_of_decodeLine {k : LineId} (h : decodeLine b = some k) : b.toNat = k.val := by
  unfold decodeLine at h
  split at h <;> cases h
  rfl

theorem toNat_of_decodeLevel {l : Level} (h : decodeLevel b = some l) : b.toNat = l.num := by
  unfold decodeLevel at h
  split at h <;> cases h <;> assumption

theorem toNat_of_decodeUpLevel {l : Level} (h : decodeUpLevel b = some l) : b.toNat = l.num := by
  unfold decodeUpLevel at h
  split at h <;> cases h <;> assumption

theorem toNat_of_decodeYesNo {y : Bool} (h : decodeYesNo b = some y) : b.toNat = y.toNat := by
  unfold decodeYesNo at h
  split at h <;> cases h <;> assumption

theorem toNat_of_decodeEdge {e : Edge} (h : decodeEdge b = some e) : b.toNat = e.code.toNat := by
  unfold decodeEdge at h
  split at h <;> cases h <;> assumption

theorem num_le (l : Level) : l.num ≤ 3 := by cases l <;> decide

theorem code_le (e : Edge) : e.code.toNat ≤ 2 := by cases e <;> decide

/-- R172: a level that RETAIN, RUN or BOOST is sent as. -/
theorem range_of_decodeUpLevel {l : Level} (h : decodeUpLevel b = some l) : 1 ≤ b.toNat ∧ b.toNat ≤ 3 := by
  rw [toNat_of_decodeUpLevel h]
  exact ⟨ne_off_iff.1 (decodeUpLevel_ne_off h), num_le l⟩

end

/-! ### The bodies that pass -/

section
variable {body : List Byte}

/-- R172: the bytes of a body that asks for a record. -/
theorem range_of_decodeRecord {d : Managed} {maxLevel : Level} {r : DomainRecord}
    (h : decodeRecord d maxLevel body = some r) :
    (byteAt body 1).toNat ≤ d.val ∧ (1 ≤ (byteAt body 2).toNat ∧ (byteAt body 2).toNat ≤ 3) ∧
      (1 ≤ (byteAt body 4).toNat ∧ (byteAt body 4).toNat ≤ 8) ∧ 1 ≤ (byteAt body 5).toNat ∧
      (1 < maxLevel.num → 1 ≤ (byteAt body 7).toNat) ∧ 1 ≤ (byteAt body 9).toNat := by
  unfold decodeRecord at h
  split at h
  · rename_i parent floor weight pgoodTimeout clock drain hparent hfloor hweight htimeout hclock hdrain
    split at h
    · rename_i lower
      obtain ⟨-, weightRange⟩ := decodeBetween_eq_some.1 hweight
      obtain ⟨-, timeoutLow, -⟩ := decodeBetween_eq_some.1 htimeout
      obtain ⟨-, drainLow, -⟩ := decodeBetween_eq_some.1 hdrain
      refine ⟨toNat_of_decodeDomain hparent ▸ lower, range_of_decodeUpLevel hfloor, weightRange, timeoutLow,
        fun above => ?_, drainLow⟩
      rw [decodeClock, if_pos (show Level.retain.num < maxLevel.num from above)] at hclock
      obtain ⟨n, between, -⟩ := Option.map_eq_some_iff.1 hclock
      exact (decodeBetween_eq_some.1 between).2.1
    · cases h
  · cases h

/-- R172: the bytes of a body that passes the range pass of DEFINE_DOMAIN. -/
theorem range_of_decodeDefineDomain {x : Managed × Option DomainRecord} (h : decodeDefineDomain body = some x) :
    (1 ≤ (byteAt body 0).toNat ∧ (byteAt body 0).toNat ≤ 15) ∧ (byteAt body 3).toNat ≤ 3 ∧
      ((byteAt body 3).toNat ≠ 0 → (byteAt body 1).toNat < (byteAt body 0).toNat ∧
        (1 ≤ (byteAt body 2).toNat ∧ (byteAt body 2).toNat ≤ 3) ∧
        (1 ≤ (byteAt body 4).toNat ∧ (byteAt body 4).toNat ≤ 8) ∧ 1 ≤ (byteAt body 5).toNat ∧
        (1 < (byteAt body 3).toNat → 1 ≤ (byteAt body 7).toNat) ∧ 1 ≤ (byteAt body 9).toNat) := by
  unfold decodeDefineDomain at h
  split at h
  · rename_i d domain level
    have number := toNat_of_decodeManaged domain
    have off : (byteAt body 3).toNat = 0 := toNat_of_decodeLevel level
    exact ⟨⟨by omega, by omega⟩, by omega, fun up => absurd off up⟩
  · rename_i d maxLevel _ domain level
    have number := toNat_of_decodeManaged domain
    have level := toNat_of_decodeLevel level
    obtain ⟨r, record, -⟩ := Option.map_eq_some_iff.1 h
    obtain ⟨parent, rest⟩ := range_of_decodeRecord record
    rw [← level] at rest
    exact ⟨⟨by omega, by omega⟩, level ▸ num_le maxLevel, fun _ => ⟨by omega, rest⟩⟩
  · cases h

/-- R174: the bytes of a body whose template passes. -/
theorem range_of_decodeTemplate {template : Option Template} (h : decodeTemplate body = some template) :
    (byteAt body 5).toNat ≤ 1 ∧ ((byteAt body 5).toNat = 1 → (1 ≤ (byteAt body 6).toNat ∧ (byteAt body 6).toNat ≤ 15) ∧
      (1 ≤ (byteAt body 7).toNat ∧ (byteAt body 7).toNat ≤ 3) ∧ 1 ≤ fieldAt body 8 2) := by
  unfold decodeTemplate at h
  split at h
  · rename_i no
    have absent : (byteAt body 5).toNat = 0 := toNat_of_decodeYesNo no
    exact ⟨by omega, fun present => by omega⟩
  · rename_i yes
    have present : (byteAt body 5).toNat = 1 := toNat_of_decodeYesNo yes
    split at h
    · rename_i d level n domain up time
      have number := toNat_of_decodeManaged domain
      obtain ⟨-, low, -⟩ := decodeBetween_eq_some.1 time
      exact ⟨by omega, fun _ => ⟨⟨by omega, by omega⟩, range_of_decodeUpLevel up, low⟩⟩
    · cases h
  · cases h

/-- R174: the bytes of a body that passes the range pass of DEFINE_WAKE. -/
theorem range_of_decodeDefineWake {x : LineId × WakeLine} (h : decodeDefineWake body = some x) :
    (byteAt body 0).toNat ≤ 7 ∧ (byteAt body 1).toNat ≤ 1 ∧ (byteAt body 2).toNat ≤ 2 ∧ (byteAt body 3).toNat ≤ 3 ∧
      (byteAt body 4).toNat ≤ 15 ∧ (byteAt body 5).toNat ≤ 1 ∧
      ((byteAt body 5).toNat = 1 → (1 ≤ (byteAt body 6).toNat ∧ (byteAt body 6).toNat ≤ 15) ∧
        (1 ≤ (byteAt body 7).toNat ∧ (byteAt body 7).toNat ≤ 3) ∧ 1 ≤ fieldAt body 8 2) := by
  unfold decodeDefineWake at h
  split at h
  · rename_i k enabled edge agent home template hline henabled hedge hagent hhome htemplate
    have line := toNat_of_decodeLine hline
    have switch := toNat_of_decodeYesNo henabled
    have edge := toNat_of_decodeEdge hedge ▸ code_le edge
    have agent := toNat_of_decodeAgent hagent
    have home := toNat_of_decodeDomain hhome
    exact ⟨by omega, switch ▸ Bool.toNat_le enabled, edge, by omega, by omega, range_of_decodeTemplate htemplate⟩
  · cases h

/-- R177: the bytes of a body that passes the range pass of SET_WAKE_ENABLE. -/
theorem range_of_decodeSetWakeEnable {x : LineId × Bool} (h : decodeSetWakeEnable body = some x) :
    (byteAt body 0).toNat ≤ 7 ∧ (byteAt body 1).toNat ≤ 1 := by
  unfold decodeSetWakeEnable at h
  split at h
  · rename_i k enable line switch
    have line := toNat_of_decodeLine line
    exact ⟨by omega, toNat_of_decodeYesNo switch ▸ Bool.toNat_le enable⟩
  · cases h

end

/-! ### The refusals -/

section
variable {body : List Byte}

theorem doDefineDomain_none (h : decodeDefineDomain body = none) (p : Agent) (s : State) :
    doDefineDomain p body s = refuse .badValue s := by
  simp only [doDefineDomain, h]

theorem doDefineWake_none (h : decodeDefineWake body = none) (p : Agent) (s : State) :
    doDefineWake p body s = refuse .badValue s := by
  simp only [doDefineWake, h]

theorem doSetWakeEnable_none (h : decodeSetWakeEnable body = none) (p : Agent) (s : State) :
    doSetWakeEnable p body s = refuse .badValue s := by
  simp only [doSetWakeEnable, h]

end

section
variable {b : Byte} {rest : List Byte}

theorem doSetWindow_none (h : decodeWindow b = none) (p : Agent) (s : State) :
    doSetWindow p (b :: rest) s = refuse .badValue s := by
  have byte : byteAt (b :: rest) 0 = b := rfl
  simp only [doSetWindow, decodeSetWindow, byte, h]

theorem doClearWindow_none (h : decodeWindow b = none) (p : Agent) (s : State) :
    doClearWindow p (b :: rest) s = refuse .badValue s := by
  have byte : byteAt (b :: rest) 0 = b := rfl
  simp only [doClearWindow, byte, h]

theorem doClearFault_none (h : decodeDomain b = none) (p : Agent) (s : State) :
    doClearFault p (b :: rest) s = refuse .badValue s := by
  have byte : byteAt (b :: rest) 0 = b := rfl
  simp only [doClearFault, clearFaultDomain, byte, h]

theorem doListLeases_none (h : decodeDomain b = none) (p : Agent) (s : State) :
    doListLeases p (b :: rest) s = refuse .badValue s := by
  have byte : byteAt (b :: rest) 0 = b := rfl
  simp only [doListLeases, byte, h]

end

/-- R198: the number that the last two of ten bytes carry. -/
theorem fieldAt_eight (b0 b1 b2 b3 b4 b5 b6 b7 b8 b9 : Byte) :
    fieldAt [b0, b1, b2, b3, b4, b5, b6, b7, b8, b9] 8 2 = 256 * b8.toNat + b9.toNat := by
  simp [fieldAt]

/-- Settles O14: a body with a field out of range fails its range pass, since the bytes of one that passes are in range
(`range_of_decodeDefineDomain`, `range_of_decodeDefineWake`, `range_of_decodeSetWakeEnable`). -/
theorem rangeFaultsAreBadValue : Obligations.RangeFaultsAreBadValue := by
  intro s p seq b0 b1 b2 b3 b4 b5 b6 b7 b8 b9 executes body
  refine ⟨fun above => ?_, ?_, ?_, ?_, ?_⟩
  · exact exec_agent (r := .listLeases) executes rfl rfl rfl (doListLeases_none (decodeDomain_none above) p s)
  · rintro rfl setup fault
    have fails : decodeDefineDomain body = none := by
      rw [Option.eq_none_iff_forall_ne_some]
      intro x passes
      have range := range_of_decodeDefineDomain passes
      simp only [body, byteAt, List.getD_cons_zero, List.getD_cons_succ] at range
      simp only [BitVec.toNat_eq, ne_eq, BitVec.ofNat_eq_ofNat, BitVec.toNat_ofNat] at fault
      omega
    exact exec_supervisor (r := .defineDomain) executes (if_pos setup) rfl (doDefineDomain_none fails 0 s)
  · rintro rfl setup fault
    have fails : decodeDefineWake body = none := by
      rw [Option.eq_none_iff_forall_ne_some]
      intro x passes
      have range := range_of_decodeDefineWake passes
      simp only [body, fieldAt_eight, byteAt, List.getD_cons_zero, List.getD_cons_succ] at range
      simp only [BitVec.toNat_eq, BitVec.ofNat_eq_ofNat, BitVec.toNat_ofNat] at fault
      omega
    exact exec_supervisor (r := .defineWake) executes (if_pos setup) rfl (doDefineWake_none fails 0 s)
  · rintro rfl running above
    have window : decodeWindow b0 = none := decodeWindow_none above
    exact ⟨exec_supervisor (r := .setWindow) executes (if_neg running) rfl (doSetWindow_none window 0 s),
      exec_supervisor (r := .clearWindow) executes (if_neg running) rfl (doClearWindow_none window 0 s),
      exec_supervisor (r := .clearFault) executes (if_neg running) rfl (doClearFault_none (decodeDomain_none above) 0 s)⟩
  · rintro rfl running fault
    have fails : decodeSetWakeEnable [b0, b1] = none := by
      rw [Option.eq_none_iff_forall_ne_some]
      intro x passes
      have range := range_of_decodeSetWakeEnable passes
      simp only [byteAt, List.getD_cons_zero, List.getD_cons_succ] at range
      omega
    exact exec_supervisor (r := .setWakeEnable) executes (if_pos running) rfl (doSetWakeEnable_none fails 0 s)

end Sys2Proof.Machine
end

section
/-! STATUS, QUERY_DOMAIN, QUERY_LEASE and LIST_LEASES: what each reports, and that it changes nothing (R147 to R152, R200). -/

namespace Sys2Proof.Machine

/-! ### STATUS and QUERY_DOMAIN -/

/-- Settles O15: STATUS is admitted always, so only its body's length can refuse it. -/
theorem statusReportsTheCounts : Obligations.StatusReportsTheCounts := by
  intro s p seq body executes fits
  by_cases empty : body = []
  · rw [if_pos empty, empty]
    exact exec_agent (r := .status) executes rfl rfl rfl rfl
  · rw [if_neg empty]
    have length : body.length ≠ Request.status.bodyLength := fun none => empty (List.length_eq_zero_iff.1 none)
    exact exec_badLength (r := .status) executes fits nofun rfl length

/-- R148: the report of a managed domain. -/
theorem doQueryDomain_managed (p : Agent) (d : Managed) (s : State) :
    doQueryDomain p [managedCode d] s = accept (domainReport s d) s := by
  have byte : byteAt [managedCode d] 0 = managedCode d := rfl
  simp only [doQueryDomain, byte, decodeDomain_managedCode, asManaged_managedDomain]

/-- R144: a domain number above 15. -/
theorem doQueryDomain_none {b : Byte} (above : 15 < b.toNat) (p : Agent) (s : State) :
    doQueryDomain p [b] s = refuse .badValue s := by
  have byte : byteAt [b] 0 = b := rfl
  simp only [doQueryDomain, byte, decodeDomain_none above]

/-- Settles O16: QUERY_DOMAIN is admitted always, and its owner answers by the domain's number. -/
theorem queryDomainReportsTheEngine : Obligations.QueryDomainReportsTheEngine := by
  intro s p seq executes
  exact ⟨fun d => exec_agent (r := .queryDomain) executes rfl rfl rfl (doQueryDomain_managed p d s),
    fun _ above => exec_agent (r := .queryDomain) executes rfl rfl rfl (doQueryDomain_none above p s)⟩

/-- Settles O17: number 0 names D0, which is no managed domain, so the owner answers R149's fixed values. -/
theorem rootDomainIsReportedAtBoost : Obligations.RootDomainIsReportedAtBoost := by
  intro s p seq executes
  have own : doQueryDomain p [0] s = accept rootReport s := rfl
  exact exec_agent (r := .queryDomain) executes rfl rfl rfl own

/-! ### Handles -/

/-- R198: a handle is read back from its two bytes. -/
theorem decodeHandle_bytes (h : Handle) (rest : List Byte) :
    decodeHandle (byteOf h.slot.val :: h.generation :: rest) = some h := by
  have slot : byteAt (byteOf h.slot.val :: h.generation :: rest) 0 = byteOf h.slot.val := rfl
  rw [decodeHandle, slot, decodeSlot_byteOf]
  rfl

/-- R144: a slot number above 47. -/
theorem decodeHandle_none {x : Byte} (above : 47 < x.toNat) (rest : List Byte) : decodeHandle (x :: rest) = none := by
  have slot : byteAt (x :: rest) 0 = x := rfl
  rw [decodeHandle, slot, decodeSlot_none above]
  rfl

/-! ### QUERY_LEASE -/

theorem timeBytes_eq (t : Option Nat) : timeBytes t = bigEndian 2 (t.getD 0) := (bigEndian_two _).symm

/-- R198, R200: the record's bytes, with the codes of absent fields. -/
theorem leaseBytes_eq (h : Handle) (l : Lease) : leaseBytes h l =
    [byteOf h.slot.val, h.generation, l.state.code, byteOf l.holder.val, managedCode l.domain, l.term.code,
      l.wanted.code, grantedCode l.granted] ++ bigEndian 2 (l.term.time.getD 0) ++ [l.term.windowCode] ++
      bigEndian 2 (l.state.countdown.getD 0) ++ bigEndian 2 l.tag.toNat ++ [l.origin.code, l.state.causeCode] := by
  rw [leaseBytes, timeBytes_eq, timeBytes_eq, ← bigEndian_two]
  rfl

theorem doQueryLease_named {s : State} {h : Handle} {l : Lease} (named : s.named h = some l) (p : Agent) :
    doQueryLease p [byteOf h.slot.val, h.generation] s = accept (leaseBytes h l) s := by
  simp only [doQueryLease, decodeHandle_bytes, named]

theorem doQueryLease_stale {s : State} {h : Handle} (stale : s.named h = none) (p : Agent) :
    doQueryLease p [byteOf h.slot.val, h.generation] s = refuse .staleHandle s := by
  simp only [doQueryLease, decodeHandle_bytes, stale]

theorem doQueryLease_none {x : Byte} (above : 47 < x.toNat) (g : Byte) (p : Agent) (s : State) :
    doQueryLease p [x, g] s = refuse .badValue s := by
  simp only [doQueryLease, decodeHandle_none above]

/-! ### LIST_LEASES -/

theorem toNat_grantedCode (g : Option Level) : (grantedCode g).toNat = grantedNum g := by
  rcases g with _ | level
  · rfl
  · cases level <;> rfl

/-- R21: the states of a live lease. -/
theorem state_of_live {l : Lease} (live : l.live = true) : l.state = .pending ∨ ∃ countdown, l.state = .held countdown := by
  unfold Lease.live at live
  split at live
  · rename_i pending; exact .inl pending
  · rename_i held; exact .inr ⟨_, held⟩
  · cases live

theorem heldBit_of_live {l : Lease} (live : l.live = true) : 4 * l.state.heldBit = if l.state = .pending then 0 else 4 := by
  rcases state_of_live live with state | ⟨countdown, state⟩ <;> rw [state] <;> rfl

/-- R200: the entry of a live lease. -/
theorem leaseEntry_of_live (h : Handle) {l : Lease} (live : l.live = true) : leaseEntry h l =
    [byteOf h.slot.val, h.generation,
      byteOf (8 * l.term.code.toNat + (if l.state = .pending then 0 else 4) + l.holder.val),
      byteOf (4 * grantedNum l.granted + l.wanted.num)] := by
  rw [leaseEntry, heldBit_of_live live, toNat_grantedCode]
  rfl

theorem doListLeases_managed (p : Agent) (d : Managed) (s : State) :
    doListLeases p [managedCode d] s = accept (byteOf (s.list d).length :: listEntries s d) s := by
  have byte : byteAt [managedCode d] 0 = managedCode d := rfl
  simp only [doListLeases, byte, decodeDomain_managedCode, asManaged_managedDomain]

/-- R152: the entries of a list whose slots hold live leases. -/
theorem listEntries_of_live {s : State} {d : Managed} {leases : List (SlotId × Lease)}
    (list : s.list d = leases.map Prod.fst) (live : ∀ x ∈ leases, s.lease x.1 = some x.2 ∧ x.2.live = true) :
    listEntries s d = leases.flatMap fun x =>
      [byteOf x.1.val, (s.slot x.1).generation,
        byteOf (8 * x.2.term.code.toNat + (if x.2.state = .pending then 0 else 4) + x.2.holder.val),
        byteOf (4 * grantedNum x.2.granted + x.2.wanted.num)] := by
  rw [listEntries, list, List.flatMap_map]
  refine List.flatMap_congr fun x mem => ?_
  obtain ⟨lease, alive⟩ := live x mem
  simp only [lease, leaseEntry_of_live _ alive, State.handle]

/-- Settles O18: both requests are admitted always, and their owners answer from the table. -/
theorem leaseQueriesReportTheTable : Obligations.LeaseQueriesReportTheTable := by
  intro s p seq executes
  have query : ∀ {x g : Byte} {st : Status} {reply : List Byte},
      doQueryLease p [x, g] s = (s, { status := st, body := reply }) →
      exec (.queryLease p seq [x, g]) s = .next (answer p seq st reply s) :=
    fun own => exec_agent (r := .queryLease) executes rfl rfl rfl own
  have list : ∀ {b : Byte} {reply : List Byte}, doListLeases p [b] s = accept reply s →
      exec (.listLeases p seq [b]) s = .next (answer p seq .ok reply s) :=
    fun own => exec_agent (r := .listLeases) executes rfl rfl rfl own
  refine ⟨fun h l named => ?_, fun h stale => query (doQueryLease_stale stale p),
    fun x g above => query (doQueryLease_none above g p s), fun d leases slots live => ?_, list rfl⟩
  · rw [query (doQueryLease_named named p), leaseBytes_eq]
    obtain ⟨_, _, term, _, _, state, _, _⟩ := l
    rcases state with _ | (_ | _) | _ <;> cases term <;> rfl
  · rw [list (doListLeases_managed p d s), listEntries_of_live slots live, slots, List.length_map]

end Sys2Proof.Machine
end

section
/-! ACQUIRE: its range pass, the meaning pass and the object checks in their order, and the lease it makes (R24, R27, R91,
R153 to R155). -/

namespace Sys2Proof.Machine

/-! ### The range pass -/

/-- R153: the bytes of a body whose kind reads its fields. -/
theorem range_of_decodeTerm {body : List Byte} {term : Term} (h : decodeTerm body = some term) :
    (1 ≤ (byteAt body 2).toNat ∧ (byteAt body 2).toNat ≤ 3) ∧
      ((byteAt body 2).toNat = 2 → (byteAt body 3).toNat ≤ 15) ∧
      ((byteAt body 2).toNat ≤ 2 → 1 ≤ fieldAt body 4 2) := by
  unfold decodeTerm at h
  split at h
  · rename_i timed
    obtain ⟨n, between, -⟩ := Option.map_eq_some_iff.1 h
    exact ⟨by omega, by omega, fun _ => (decodeBetween_eq_some.1 between).2.1⟩
  · rename_i watched
    split at h
    · rename_i w n window between
      have number := toNat_of_decodeWindow window
      exact ⟨by omega, fun _ => by omega, fun _ => (decodeBetween_eq_some.1 between).2.1⟩
    · cases h
  · rename_i standing
    exact ⟨by omega, by omega, by omega⟩
  · cases h

/-- R154: the bytes of a body that passes the range pass of ACQUIRE. -/
theorem range_of_decodeAcquire {body : List Byte} {f : AcquireFields} (h : decodeAcquire body = some f) :
    (byteAt body 0).toNat ≤ 15 ∧ (byteAt body 1).toNat ≤ 3 ∧ decodeTerm body = some f.term := by
  unfold decodeAcquire at h
  split at h
  · rename_i d level term domain up kind
    cases h
    have number := toNat_of_decodeDomain domain
    exact ⟨by omega, toNat_of_decodeLevel up ▸ num_le level, kind⟩
  · cases h

/-- R199: the eight bytes of an ACQUIRE body. -/
def acquireBytes (dom level kind w t1 t0 : Byte) (tag : Tag) : List Byte :=
  [dom, level, kind, w, t1, t0] ++ bigEndian 2 tag.toNat

/-- R199: the time field of an ACQUIRE body. -/
theorem time_acquireBytes (dom level kind w : Byte) {t1 t0 : Byte} (tag : Tag) {n : Nat} (time : [t1, t0] = bigEndian 2 n)
    (fits : n < 256 ^ 2) : fieldAt (acquireBytes dom level kind w t1 t0 tag) 4 2 = n := by
  have bytes : acquireBytes dom level kind w t1 t0 tag =
      [dom, level, kind, w] ++ (bigEndian 2 n ++ bigEndian 2 tag.toNat) := by
    rw [← time]; rfl
  rw [bytes]
  exact fieldAt_bigEndian [dom, level, kind, w] _ 2 n fits

/-- R199: the tag field of an ACQUIRE body. -/
theorem tag_acquireBytes (dom level kind w t1 t0 : Byte) (tag : Tag) :
    fieldAt (acquireBytes dom level kind w t1 t0 tag) 6 2 = tag.toNat := by
  have field := fieldAt_bigEndian [dom, level, kind, w, t1, t0] [] 2 tag.toNat tag.isLt
  rwa [List.append_nil] at field

/-- R199: every body of ACQUIRE carries the domain, the level, the kind and the tag, with the time and the window of its
kind. -/
theorem acquireBody_bytes {dom : Domain} {level : Level} {term : Term} {tag : Tag} {body : List Byte}
    (h : acquireBody dom level term tag body) : ∃ w t1 t0,
      body = acquireBytes (byteOf dom.val) level.code term.code w t1 t0 tag ∧
      (∀ n ∈ term.time, [t1, t0] = bigEndian 2 n) ∧ ∀ x ∈ term.window?, w = byteOf x.val := by
  cases term with
  | timed n =>
    obtain ⟨w, rfl⟩ := h
    exact ⟨w, _, _, rfl, fun _ time => by cases time; rfl, nofun⟩
  | watched n x =>
    obtain rfl := h
    exact ⟨_, _, _, rfl, fun _ time => by cases time; rfl, fun _ window => by cases window; rfl⟩
  | standing =>
    obtain ⟨w, t1, t0, rfl⟩ := h
    exact ⟨w, t1, t0, rfl, nofun, nofun⟩

section
variable {dom : Domain} {level : Level} {term : Term} {tag : Tag} {body : List Byte}

theorem length_acquireBody (h : acquireBody dom level term tag body) : body.length = 8 := by
  obtain ⟨w, t1, t0, rfl, -, -⟩ := acquireBody_bytes h
  rfl

/-- R153: the kind and its fields are read back. -/
theorem decodeTerm_body (h : acquireBody dom level term tag body) (range : term.inRange) :
    decodeTerm body = some term := by
  obtain ⟨w, t1, t0, rfl, time, window⟩ := acquireBody_bytes h
  have timed : ∀ n ∈ term.time, decodeBetween 1 65535
      (fieldAt (acquireBytes (byteOf dom.val) level.code term.code w t1 t0 tag) 4 2) = some n := by
    intro n mem
    obtain ⟨low, high⟩ := range n mem
    rw [time_acquireBytes _ _ _ _ tag (time n mem) (by omega)]
    exact decodeBetween_eq_some.2 ⟨rfl, low, high⟩
  cases term with
  | timed n => exact congrArg (Option.map Term.timed) (timed n rfl)
  | watched n x =>
    have kind : (byteAt (acquireBytes (byteOf dom.val) level.code (Term.watched n x).code w t1 t0 tag) 2).toNat = 2 := rfl
    have byte : byteAt (acquireBytes (byteOf dom.val) level.code (Term.watched n x).code w t1 t0 tag) 3 = byteOf x.val :=
      window x rfl
    simp only [decodeTerm, kind, byte, decodeWindow_byteOf, timed n rfl]
  | standing => rfl

/-- R154: a body in range passes the range pass, and its fields are read back. -/
theorem decodeAcquire_body (h : acquireBody dom level term tag body) (range : term.inRange) :
    decodeAcquire body = some { domain := dom, level := level, term := term, tag := tag } := by
  have kind := decodeTerm_body h range
  obtain ⟨w, t1, t0, rfl, -, -⟩ := acquireBody_bytes h
  have domain : byteAt (acquireBytes (byteOf dom.val) level.code term.code w t1 t0 tag) 0 = byteOf dom.val := rfl
  have wanted : byteAt (acquireBytes (byteOf dom.val) level.code term.code w t1 t0 tag) 1 = level.code := rfl
  simp only [decodeAcquire, domain, wanted, kind, tag_acquireBytes, decodeDomain_byteOf, decodeLevel_code,
    BitVec.ofNat_toNat, BitVec.setWidth_eq]

end

/-! ### The meaning pass and the object checks -/

section
variable {s : State}

/-- R154: D0 and the undefined domains. -/
theorem acquireMeaning_noDomain {f : AcquireFields} (undefined : ∀ m, asManaged f.domain = some m → s.record m = none) :
    acquireMeaning s f = .error .noDomain := by
  cases managed : asManaged f.domain with
  | none => simp only [acquireMeaning, managed]
  | some m => simp only [acquireMeaning, managed, undefined m managed]

theorem windowDefined_false_iff (s : State) (t : Term) :
    s.windowDefined t = false ↔ ∃ w ∈ t.window?, (s.window w).range = none := by
  cases window : t.window? <;> simp [State.windowDefined, window]

/-- R154: the meaning pass at a defined domain. -/
theorem acquireMeaning_defined {f : AcquireFields} {d : Managed} {r : DomainRecord} (domain : f.domain = managedDomain d)
    (record : s.record d = some r) : acquireMeaning s f =
      if f.level = .off ∨ r.maxLevel.num < f.level.num then .error .badLevel
      else if ∃ w ∈ f.term.window?, (s.window w).range = none then .error .noWindow else .ok d := by
  simp only [acquireMeaning, domain, asManaged_managedDomain, record, windowDefined_false_iff]

/-- R24: why an agent gets no slot. -/
theorem shortfall_quota {a : Agent} (quota : 16 ≤ (s.slotsOf a).length) : s.shortfall a = some .quota := if_pos quota

theorem shortfall_table {a : Agent} (quota : ¬ 16 ≤ (s.slotsOf a).length) (full : s.lowestFree = none) :
    s.shortfall a = some .table := by
  rw [State.shortfall, if_neg (by exact quota), full]
  rfl

theorem shortfall_none {a : Agent} {i : SlotId} (quota : ¬ 16 ≤ (s.slotsOf a).length) (free : s.lowestFree = some i) :
    s.shortfall a = none := by
  rw [State.shortfall, if_neg (by exact quota), free]
  rfl

/-- R154: the object checks: the fault, the quota and the table, in that order. -/
theorem acquireSlot_eq (s : State) (p : Agent) (d : Managed) : acquireSlot s p d =
    if s.faultAtOrAbove d = true then .error .domainFault
    else if 16 ≤ (s.slotsOf p).length then .error .quota
    else s.lowestFree.elim (.error .tableFull) .ok := by
  unfold acquireSlot
  split_ifs with fault quota
  · rfl
  · simp only [shortfall_quota quota]
  · cases free : s.lowestFree with
    | none => simp only [shortfall_table quota free]; rfl
    | some i => simp only [shortfall_none quota free]; rfl

/-- R27: the lease that a request makes. -/
theorem newLease_eq (a : Agent) (d : Managed) (term : Term) (wanted : Level) (tag : Tag) (origin : Origin)
    (assured : Level) : newLease a d term wanted tag origin assured =
      { holder := a, domain := d, term := term, wanted := wanted,
        granted := if wanted.num ≤ assured.num then some wanted else none,
        state := if wanted.num ≤ assured.num then .held (term.time.map Countdown.start) else .pending,
        tag := tag, origin := origin } := by
  unfold newLease
  split <;> rfl

/-- R155: the new lease and the reply that names it. -/
theorem makeLease_eq (p : Agent) (f : AcquireFields) (d : Managed) (i : SlotId) (s : State) : makeLease p f d i s =
    accept [byteOf i.val, (s.slot i).generation, if f.level.num ≤ (s.assuredOf d).num then 2 else 1,
      (s.assuredOf d).code]
      (withNewLease i
        { holder := p, domain := d, term := f.term, wanted := f.level,
          granted := if f.level.num ≤ (s.assuredOf d).num then some f.level else none,
          state := if f.level.num ≤ (s.assuredOf d).num then .held (f.term.time.map Countdown.start) else .pending,
          tag := f.tag, origin := .request } s) := by
  rw [makeLease, placeLease_eq_withNewLease, newLease_eq]
  split_ifs <;> rfl

/-! ### The request -/

section
variable {p : Agent} {body : List Byte} {f : AcquireFields} {st : Status}

theorem doAcquire_none (undecoded : decodeAcquire body = none) : doAcquire p body s = refuse .badValue s := by
  simp only [doAcquire, undecoded]

theorem doAcquire_meaning (decoded : decodeAcquire body = some f) (meaning : acquireMeaning s f = .error st) :
    doAcquire p body s = refuse st s := by
  simp only [doAcquire, decoded, meaning]

theorem doAcquire_slot {d : Managed} (decoded : decodeAcquire body = some f) (meaning : acquireMeaning s f = .ok d)
    (slot : acquireSlot s p d = .error st) : doAcquire p body s = refuse st s := by
  simp only [doAcquire, decoded, meaning, slot]

theorem doAcquire_made {d : Managed} {i : SlotId} (decoded : decodeAcquire body = some f)
    (meaning : acquireMeaning s f = .ok d) (slot : acquireSlot s p d = .ok i) :
    doAcquire p body s = makeLease p f d i s := by
  simp only [doAcquire, decoded, meaning, slot]

end

/-- R142, R143: in RUN an executed ACQUIRE with eight bytes is answered as its owner says. -/
theorem exec_acquire {s' : State} {p : Agent} {seq : Byte} {body reply : List Byte} {st : Status}
    (executes : s.executes p seq = true) (running : s.partState = .run) (length : body.length = 8)
    (own : doAcquire p body s = (s', { status := st, body := reply })) :
    exec (.acquire p seq body) s = .next (answer p seq st reply s') :=
  exec_agent (r := .acquire) executes rfl (if_pos running) length own

end

/-- Settles O19: the body is read back (`decodeAcquire_body`), every check passes, and `makeLease_eq` gives the lease and the
reply. -/
theorem acquireMakesTheLease : Obligations.AcquireMakesTheLease := by
  intro s p seq body d r level term tag i executes running record asked up allowed range windows sound quota free lowest
  have defined : ¬ ∃ w ∈ term.window?, (s.window w).range = none := by
    rintro ⟨w, window, undefined⟩
    simpa [undefined] using windows w window
  have meaning : acquireMeaning s { domain := managedDomain d, level := level, term := term, tag := tag } = .ok d := by
    rw [acquireMeaning_defined rfl record, if_neg (by simp only [up, false_or]; omega), if_neg defined]
  have slot : acquireSlot s p d = .ok i := by
    rw [acquireSlot_eq, if_neg (Bool.eq_false_iff.1 sound), if_neg (Nat.not_le.2 quota),
      lowestFree_eq_some free lowest]
    rfl
  have own := (doAcquire_made (decodeAcquire_body asked range) meaning slot).trans (makeLease_eq ..)
  exact exec_acquire executes running (length_acquireBody asked) own

/-- R154: a byte out of range that its kind reads fails the range pass. -/
theorem decodeAcquire_none {dom level kind w t1 t0 g1 g0 : Byte}
    (fault : 15 < dom.toNat ∨ 3 < level.toNat ∨ kind.toNat = 0 ∨ 3 < kind.toNat ∨ (kind = 2 ∧ 15 < w.toNat) ∨
      ((kind = 1 ∨ kind = 2) ∧ t1 = 0 ∧ t0 = 0)) : decodeAcquire [dom, level, kind, w, t1, t0, g1, g0] = none := by
  rw [Option.eq_none_iff_forall_ne_some]
  intro f passes
  obtain ⟨domain, up, term⟩ := range_of_decodeAcquire passes
  have range := range_of_decodeTerm term
  have field : fieldAt [dom, level, kind, w, t1, t0, g1, g0] 4 2 = 256 * t1.toNat + t0.toNat := by simp [fieldAt]
  rw [field] at range
  simp only [byteAt, List.getD_cons_zero, List.getD_cons_succ] at domain up range
  simp only [BitVec.toNat_eq, BitVec.ofNat_eq_ofNat, BitVec.toNat_ofNat] at fault
  omega

/-- Settles O20: the range pass (`decodeAcquire_none`), then the meaning pass and the object checks, each in the order of its
equation (`acquireMeaning_defined`, `acquireSlot_eq`). -/
theorem acquireRefusesInItsOrder : Obligations.AcquireRefusesInItsOrder := by
  refine ⟨fun s p seq dom level kind w t1 t0 g1 g0 executes running fault => ?_,
    fun s p seq body dom level term tag executes running asked range undefined => ?_,
    fun s p seq body d r level term tag executes running asked range record => ?_⟩
  · exact exec_acquire executes running rfl (doAcquire_none (decodeAcquire_none fault))
  · have meaning : acquireMeaning s { domain := dom, level := level, term := term, tag := tag } = .error .noDomain :=
      acquireMeaning_noDomain undefined
    exact exec_acquire executes running (length_acquireBody asked)
      (doAcquire_meaning (decodeAcquire_body asked range) meaning)
  · have decoded := decodeAcquire_body asked range
    have refused : ∀ {st : Status}, doAcquire p body s = refuse st s →
        exec (.acquire p seq body) s = .next (answer p seq st [] s) :=
      fun own => exec_acquire executes running (length_acquireBody asked) own
    have meaning := acquireMeaning_defined (f := { domain := managedDomain d, level := level, term := term, tag := tag })
      rfl record
    have slot := acquireSlot_eq s p d
    split_ifs with badLevel noWindow fault quota
    · exact refused (doAcquire_meaning decoded (meaning.trans (if_pos badLevel)))
    · rw [if_neg badLevel, if_pos noWindow] at meaning
      exact refused (doAcquire_meaning decoded meaning)
    · rw [if_neg badLevel, if_neg noWindow] at meaning
      rw [if_pos fault] at slot
      exact refused (doAcquire_slot decoded meaning slot)
    · rw [if_neg badLevel, if_neg noWindow] at meaning
      rw [if_neg fault, if_pos quota] at slot
      exact refused (doAcquire_slot decoded meaning slot)
    · intro full
      rw [if_neg badLevel, if_neg noWindow] at meaning
      rw [if_neg fault, if_neg quota, lowestFree_eq_none full] at slot
      exact refused (doAcquire_slot decoded meaning slot)

end Sys2Proof.Machine
end

section
/-! RENEW, MODIFY and RELEASE of a lease by its holder (R29, R31, R34, R35, R39, R40, R127, R133, R145, R156 to R161). -/

namespace Sys2Proof.Machine

/-! ### The lease that a handle names -/

/-- R145: the holder's handle passes. -/
theorem ownLease_eq {s : State} {p : Agent} {h : Handle} {l : Lease} (named : s.named h = some l) (holder : l.holder = p) :
    ownLease s p h = .ok l := by
  simp only [ownLease, named, if_pos holder]

theorem code_of_live {l : Lease} (live : l.live = true) : l.state.code = if l.state = .pending then 1 else 2 := by
  rcases state_of_live live with state | ⟨countdown, state⟩ <;> rw [state] <;> rfl

section
variable {s : State} {p : Agent} {h : Handle} {l : Lease}

/-! ### RENEW -/

/-- R156: the time that a body carries; 0 keeps the stored one. -/
theorem renewTime_body (x g : Byte) {time : Nat} (fits : time ≤ 65535) :
    renewTime ([x, g] ++ bigEndian 2 time) = if time = 0 then none else some time := by
  have field : fieldAt ([x, g] ++ bigEndian 2 time) 2 2 = time := by
    simpa using fieldAt_bigEndian [x, g] [] 2 time (by omega)
  rw [renewTime, field]

/-- R156, R157: RENEW of a live lease that has a time. -/
theorem doRenew_live (named : s.named h = some l) (holder : l.holder = p) (live : l.live = true)
    (timed : l.term ≠ .standing) (rest : List Byte) :
    doRenew p (byteOf h.slot.val :: h.generation :: rest) s =
      renewLease h.slot (renewTime (byteOf h.slot.val :: h.generation :: rest)) l s := by
  simp only [doRenew, decodeHandle_bytes, ownLease_eq named holder]
  split
  · rename_i cause ended
    exact absurd ended (not_ended_of_live live cause)
  · rfl

theorem left_reload (old : Option Countdown) (time : Nat) : (Countdown.reload old time).left = time := by
  cases old <;> rfl

/-- R31: the term that a renewal leaves, and the time that is then in force. -/
theorem renewed_eq {t term : Term} {n time : Nat}
    (terms : t = .timed n ∧ term = .timed (if time = 0 then n else time) ∨
      ∃ w, t = .watched n w ∧ term = .watched (if time = 0 then n else time) w) :
    t.renewed (if time = 0 then none else some time) = term ∧ term.time = some (if time = 0 then n else time) := by
  rcases terms with ⟨rfl, rfl⟩ | ⟨w, rfl, rfl⟩ <;> split_ifs <;> exact ⟨rfl, rfl⟩

/-- R157: the reply of a renewal of a live lease, and the lease it leaves. -/
theorem renewLease_live {term : Term} {time : Option Nat} {n : Nat} (live : l.live = true)
    (renewed : l.term.renewed time = term) (inForce : term.time = some n) (i : SlotId) (s : State) :
    renewLease i time l s =
      if l.state = .pending then accept ([1] ++ bigEndian 2 n ++ [0, 0]) (withLease i { l with term := term } s)
      else accept ([2] ++ bigEndian 2 n ++ bigEndian 2 n)
        (withLease i { l with term := term, state := l.state.load (some n) } s) := by
  have renew : l.renew time = { l with term := term, state := l.state.load (some n) } := by
    rw [Lease.renew, renewed, Lease.reload, inForce]
  rw [renewLease, renew, inForce, timeBytes_eq, timeBytes_eq, setLease_eq_withLease]
  rcases state_of_live live with state | ⟨old, state⟩
  · have absent : bigEndian 2 (LeaseState.pending.countdown.getD 0) = [0, 0] := by decide
    rw [if_pos state, state, load_pending, absent]
    rfl
  · have loaded : (LeaseState.held (some (Countdown.reload old n))).countdown.getD 0 = n := left_reload old n
    rw [if_neg (by rw [state]; nofun), state, load_held, Option.map_some, loaded]
    rfl

/-! ### MODIFY -/

/-- R158: a level that the lease's domain allows. -/
theorem modifyBadLevel_false {r : DomainRecord} {level : Level} (named : s.named h = some l)
    (record : s.record l.domain = some r) (up : level ≠ .off) (allowed : level.num ≤ r.maxLevel.num) :
    modifyBadLevel s h level = false := by
  have below : ¬ r.maxLevel.num < level.num := Nat.not_lt.2 allowed
  simp [modifyBadLevel, named, record, up, below]

/-- R158, R159: MODIFY of a live lease to a level that its domain allows. -/
theorem doModify_live {level : Level} (named : s.named h = some l) (holder : l.holder = p) (live : l.live = true)
    (allowed : modifyBadLevel s h level = false) :
    doModify p [byteOf h.slot.val, h.generation, level.code] s = modifyLease h.slot level l s := by
  have byte : byteAt [byteOf h.slot.val, h.generation, level.code] 2 = level.code := rfl
  simp only [doModify, decodeHandle_bytes, byte, decodeLevel_code, allowed, Bool.false_eq_true, if_false,
    ownLease_eq named holder]
  split
  · rename_i cause ended
    exact absurd ended (not_ended_of_live live cause)
  · rfl

/-- R34, R35, R159: what MODIFY makes of a live lease. -/
theorem modify_of_live (live : l.live = true) (level assured : Level) : l.modify level assured =
    if level = l.wanted then l
    else if l.state = .pending then
      if level.num ≤ assured.num then
        { l with wanted := level, granted := some level, state := .held (l.term.time.map Countdown.start) }
      else { l with wanted := level }
    else { l with wanted := level, granted := some (level.lower assured) } := by
  unfold Lease.modify Lease.relevel
  by_cases same : level = l.wanted
  · rw [if_pos same, if_pos same]
  · rw [if_neg same, if_neg same]
    rcases state_of_live live with state | ⟨old, state⟩
    · rw [if_pos state, state]
      rfl
    · have held : ¬ l.state = .pending := by rw [state]; nofun
      rw [if_neg held, state]

end

/-- R127: a queued notice after its slot's granted level went from `before` to `after`. -/
def Notice.regrant (i : SlotId) (before after : Option Level) (n : Notice) : Notice :=
  match n, after with
  | .granted g old, some new => if g.slot = i ∧ after ≠ before then .granted g new else .granted g old
  | _, _ => n

theorem regrant_none (i : SlotId) (before : Option Level) (n : Notice) : n.regrant i before none = n := by
  cases n <;> rfl

theorem regrant_same (i : SlotId) (before : Option Level) (n : Notice) : n.regrant i before before = n := by
  cases n <;> cases before <;> simp [Notice.regrant]

theorem regrant_changed (i : SlotId) {before : Option Level} {level : Level} (changed : some level ≠ before) (n : Notice) :
    n.regrant i before (some level) = n.relevel i level := by
  cases n <;> simp [Notice.regrant, Notice.relevel, changed]

theorem setQueue_queue (a : Agent) (s : State) : s.setQueue a (s.queue a) = s := by
  simp [State.setQueue, State.queue]

theorem grantedCode_eq (g : Option Level) : grantedCode g = byteOf (grantedNum g) := by cases g <;> rfl

/-- R127, R159: the lease changes, and with it the level of a queued GRANTED notice. -/
theorem modifyLease_eq {l m : Lease} {level : Level} {s : State} (made : l.modify level (s.assuredOf l.domain) = m)
    (i : SlotId) : modifyLease i level l s =
      accept [m.state.code, m.wanted.code, byteOf (grantedNum m.granted), (s.assuredOf l.domain).code]
        ((withLease i m s).setQueue l.holder
          ((s.queue l.holder).map (Notice.regrant i l.granted m.granted))) := by
  rw [modifyLease, made, grantedCode_eq]
  have kept : (withLease i m s).setQueue l.holder (s.queue l.holder) = withLease i m s := setQueue_queue _ (withLease i m s)
  refine congrArg (accept _) ?_
  cases granted : m.granted with
  | none =>
    rw [funext (regrant_none i l.granted), List.map_id', kept]
    rfl
  | some g =>
    by_cases changed : l.granted = some g
    · rw [changed, funext (regrant_same i (some g)), List.map_id', kept]
      exact if_neg (not_not.2 rfl)
    · rw [funext (regrant_changed i (Ne.symm changed))]
      exact if_pos changed

/-! ### The requests -/

/-- Settles O22: the body is read back (`renewTime_body`), and the renewal follows the state of the live lease
(`renewLease_live`). -/
theorem renewLoadsTheTime : Obligations.RenewLoadsTheTime := by
  intro s p seq h l n time term executes running named holder live fits terms
  obtain ⟨renewed, inForce⟩ := renewed_eq terms
  have timed : l.term ≠ .standing := by rcases terms with ⟨kind, -⟩ | ⟨w, kind, -⟩ <;> rw [kind] <;> nofun
  have own := doRenew_live named holder live timed (bigEndian 2 time)
  rw [show byteOf h.slot.val :: h.generation :: bigEndian 2 time = [byteOf h.slot.val, h.generation] ++ bigEndian 2 time
    from rfl, renewTime_body _ _ fits, renewLease_live live renewed inForce] at own
  have admitted : Request.renew.admission s.partState = none := if_pos running
  split_ifs at own ⊢
  all_goals exact exec_agent (r := .renew) executes rfl admitted rfl own

/-- Settles O23: the checks pass (`doModify_live`), and `modify_of_live` and `modifyLease_eq` give the lease, the queue and the
reply. -/
theorem modifySetsTheLevels : Obligations.ModifySetsTheLevels := by
  intro s p seq h l m r level executes running named holder live record up allowed result
  have own := doModify_live named holder live (modifyBadLevel_false named record up allowed)
  have made : l.modify level (s.assuredOf l.domain) = m := (modify_of_live live level _).trans result.symm
  have alive : m.live = true := by rw [← made, modify_live, live]
  rw [modifyLease_eq made, code_of_live alive, holder] at own
  exact exec_agent (r := .modify) executes rfl (if_pos running) rfl own

/-- Settles O24: the holder's handle passes, and `freeSlot_eq` gives what the freeing leaves. -/
theorem releaseFreesTheSlot : Obligations.ReleaseFreesTheSlot := by
  intro s p seq h l executes running named holder
  have own : doRelease p [byteOf h.slot.val, h.generation] s =
      accept [l.state.code, l.state.causeCode] (withFreed (fun i => i == h.slot) s) := by
    simp only [doRelease, decodeHandle_bytes, ownLease_eq named holder, freeSlot_eq]
  have run := exec_agent (r := .release) executes rfl (if_pos running) rfl own
  obtain ⟨_, _, _, _, _, state, _, _⟩ := l
  cases state <;> exact run

end Sys2Proof.Machine
end

section
/-! The freeing of several slots: freeings one after another make one freeing of all, and what DETACH and EVICT leave
(R39, R42, R134, R163, R164, R185). -/

namespace Sys2Proof.Machine

/-! ### The reads of a freeing -/

theorem lease_withFreed (gone : SlotId → Bool) (s : State) (i : SlotId) :
    (withFreed gone s).lease i = if gone i = true then none else s.lease i := by
  rw [State.lease, slot_withFreed]
  cases gone i with
  | false => rfl
  | true =>
    cases free : s.lease i with
    | none => exact free
    | some l => rfl

/-- What asks something of a lease is met after a freeing by the slots that are left. -/
theorem any_withFreed (gone : SlotId → Bool) (s : State) (i : SlotId) (p : Lease → Bool) :
    ((withFreed gone s).lease i).any p = ((s.lease i).any p && !gone i) := by
  rw [lease_withFreed]
  cases gone i <;> simp

theorem liveOn_withFreed (gone : SlotId → Bool) (s : State) (d : Managed) (i : SlotId) :
    (withFreed gone s).liveOn d i = (s.liveOn d i && !gone i) := any_withFreed gone s i _

theorem watches_withFreed (gone : SlotId → Bool) (s : State) (w : WindowId) (i : SlotId) :
    (withFreed gone s).watches w i = (s.watches w i && !gone i) := any_withFreed gone s i _

theorem liveAt_withFreed (gone : SlotId → Bool) (s : State) (i : SlotId) :
    (withFreed gone s).liveAt i = (s.liveAt i && !gone i) := by
  rw [liveAt_eq_any, liveAt_eq_any, any_withFreed]

/-- R22: the handle of a slot that is not freed names it as before. -/
theorem handle_withFreed {gone : SlotId → Bool} {i : SlotId} (kept : gone i = false) (s : State) :
    (withFreed gone s).handle i = s.handle i := by
  rw [State.handle, slot_withFreed, kept]
  rfl

/-- R112: a link stays unless its lease is freed. -/
theorem link_withFreed (gone : SlotId → Bool) (s : State) (k : LineId) :
    ((withFreed gone s).wake k).link =
      (s.wake k).link.filter fun h => !(gone h.slot && s.liveAt h.slot && s.handle h.slot == h) := by
  rw [wake_withFreed]
  cases link : (s.wake k).link with
  | none => exact link
  | some h =>
    rw [Option.any_some, Option.filter_some]
    cases gone h.slot && s.liveAt h.slot && s.handle h.slot == h with
    | true => rfl
    | false => exact link

/-- R39: where no slot is freed, nothing changes. -/
theorem withFreed_none (s : State) : withFreed (fun _ => false) s = s := by
  refine (leaseSide_withFreed _ s).ext (.refl s) (fun i => ?_) (fun d => ?_) (fun w => ?_) (fun k => ?_) fun a => ?_
  · rw [slot_withFreed]; rfl
  · rw [list_withFreed]; simp
  · rw [window_withFreed]; simp
  · rw [link_withFreed]; cases (s.wake k).link <;> rfl
  · rw [queue_withFreed]
    refine List.filter_eq_self.2 fun n _ => ?_
    cases n.slot? <;> rfl

/-! ### Freeings one after another -/

section
variable (first later : SlotId → Bool) (s : State)

theorem slot_withFreed_withFreed (i : SlotId) :
    (withFreed later (withFreed first s)).slot i = (withFreed (fun i => first i || later i) s).slot i := by
  rw [slot_withFreed, slot_withFreed _ s, lease_withFreed, slot_withFreed]
  cases first i <;> cases later i <;> simp

/-- The first freeing takes its watchers from a window, the second takes those of its own that are left. -/
theorem length_watchers_or (w : WindowId) :
    (allSlots.filter fun i => (first i || later i) && s.watches w i).length =
      (allSlots.filter fun i => first i && s.watches w i).length +
      (allSlots.filter fun i => later i && (s.watches w i && !first i)).length := by
  rw [List.length_eq_length_filter_add first, List.filter_filter, List.filter_filter]
  congr 2
  all_goals
    refine List.filter_congr fun i _ => ?_
    cases first i <;> cases later i <;> simp

theorem link_withFreed_withFreed (k : LineId) :
    ((withFreed later (withFreed first s)).wake k).link = ((withFreed (fun i => first i || later i) s).wake k).link := by
  simp only [link_withFreed, liveAt_withFreed, Option.filter_filter]
  refine congrArg (Option.filter · _) (funext fun h => ?_)
  cases gone : first h.slot with
  | true => simp
  | false => simp [handle_withFreed gone]

theorem queue_withFreed_withFreed (a : Agent) :
    (withFreed later (withFreed first s)).queue a = (withFreed (fun i => first i || later i) s).queue a := by
  simp only [queue_withFreed, any_withFreed, List.filter_filter]
  refine List.filter_congr fun n _ => ?_
  cases n.slot? with
  | none => rfl
  | some i => cases gone : first i <;> simp [gone]

/-- R42: two freeings are one. -/
theorem withFreed_withFreed :
    withFreed later (withFreed first s) = withFreed (fun i => first i || later i) s := by
  refine ((leaseSide_withFreed _ s).trans (leaseSide_withFreed _ _)).ext (leaseSide_withFreed _ s)
    (slot_withFreed_withFreed first later s) (fun d => ?_) (fun w => ?_) (link_withFreed_withFreed first later s)
    (queue_withFreed_withFreed first later s)
  · simp only [list_withFreed, liveOn_withFreed, List.filter_filter]
    refine List.filter_congr fun i _ => ?_
    cases first i <;> simp
  · simp only [window_withFreed, watches_withFreed, length_watchers_or, Nat.sub_sub]

end

/-- R42, R43: several slots freed in one event. -/
theorem freeSlots_eq_withFreed (is : List SlotId) (s : State) : freeSlots is s = withFreed is.contains s := by
  induction is generalizing s with
  | nil => exact (withFreed_none s).symm
  | cons i is ih =>
    have one : freeSlots (i :: is) s = freeSlots is (freeSlot i s) := rfl
    have all : (i :: is).contains = fun j => (j == i) || is.contains j := by
      funext j
      rw [List.contains_cons]
    rw [one, freeSlot_eq, ih, withFreed_withFreed, all]

/-! ### DETACH and EVICT -/

/-- R24: the slots of an agent are those whose lease it holds. -/
theorem contains_slotsOf (a : Agent) (s : State) :
    (s.slotsOf a).contains = fun i => (s.lease i).any fun l => l.holder == a := by
  funext i
  rw [Bool.eq_iff_iff, List.contains_iff_mem, State.slotsOf, List.mem_filter]
  exact and_iff_right (mem_allSlots i)

/-- R42, R134: what the freeing of an agent leaves. -/
theorem detachAgent_eq (a : Agent) (s : State) : detachAgent a s = withoutAgent a s := by
  rw [detachAgent, freeSlots_eq_withFreed, contains_slotsOf, withoutAgent]

theorem doDetach_eq (p : Agent) (body : List Byte) (s : State) :
    doDetach p body s = accept (detachCounts p s) (withoutAgent p s) := by
  rw [doDetach, detachAgent_eq]

theorem doEvict_agent (a p : Agent) (s : State) :
    doEvict p [byteOf a.val] s = accept (detachCounts a s) (withoutAgent a s) := by
  have byte : byteAt [byteOf a.val] 0 = byteOf a.val := rfl
  simp only [doEvict, byte, decodeAgent_byteOf, detachAgent_eq]

theorem doEvict_none {b : Byte} (above : 3 < b.toNat) (p : Agent) (s : State) :
    doEvict p [b] s = refuse .badValue s := by
  have byte : byteAt [b] 0 = b := rfl
  simp only [doEvict, byte, decodeAgent_none above]

/-- Settles O26: both requests free the agent's slots one after another, which `freeSlots_eq_withFreed` makes one freeing. -/
theorem detachAndEvictFreeTheAgent : Obligations.DetachAndEvictFreeTheAgent := by
  intro s p a seq executes
  refine ⟨fun running => ?_, fun running sender => ?_⟩
  · exact exec_agent (r := .detach) executes rfl (if_neg running) rfl (doDetach_eq p [] s)
  · subst sender
    exact ⟨exec_supervisor (r := .evict) executes (if_pos running) rfl (doEvict_agent a 0 s),
      fun _ above => exec_supervisor (r := .evict) executes (if_pos running) rfl (doEvict_none above 0 s)⟩

end Sys2Proof.Machine
end

section
/-! REVOKE, DEFINE_DOMAIN, DEFINE_WAKE and QUERY_WAKE of the supervisor (R4 to R7, R36, R37, R121, R172 to R174, R178, R184,
R200). -/

namespace Sys2Proof.Machine

/-! ### REVOKE -/

/-- R36, R37, R184: REVOKE of a live lease, whoever holds it. -/
theorem doRevoke_live {s : State} {h : Handle} {l : Lease} (named : s.named h = some l) (live : l.live = true) (p : Agent) :
    doRevoke p [byteOf h.slot.val, h.generation] s =
      accept [byteOf l.holder.val, if l.state = .pending then 1 else 2] (withEnded [h.slot] (fun _ => .revoked) s) := by
  rw [← endLease_eq_withEnded .revoked (lease_of_named named) live, ← code_of_live live]
  simp only [doRevoke, decodeHandle_bytes, named]
  split
  · rename_i cause ended
    exact absurd ended (not_ended_of_live live cause)
  · rfl

/-- Settles O27: RUN admits the request, and its owner answers as `doRevoke_live` says. -/
theorem revokeEndsTheLease : Obligations.RevokeEndsTheLease :=
  fun _ _ _ _ executes running named live =>
    exec_supervisor (r := .revoke) executes (if_pos running) rfl (doRevoke_live named live 0)

/-! ### The bodies of DEFINE_DOMAIN -/

theorem toNat_byteOf {n : Nat} (byte : n ≤ 255) : (byteOf n).toNat = n := by
  rw [byteOf_toNat]
  exact Nat.mod_eq_of_lt (Nat.lt_succ_of_le byte)

/-- R198: a number in a range of one byte is read back from its byte. -/
theorem decodeBetween_byteOf {low high n : Nat} (byte : high ≤ 255) (range : low ≤ n ∧ n ≤ high) :
    decodeBetween low high (byteOf n).toNat = some n := by
  rw [toNat_byteOf (range.2.trans byte)]
  exact decodeBetween_eq_some.2 ⟨rfl, range⟩

/-- R172: the clock timeout is read where the maximum level calls for it. -/
theorem decodeClock_body {maxLevel : Level} {clock : Option Nat}
    (there : clock.isSome = true ↔ Level.retain.num < maxLevel.num) (range : ∀ n ∈ clock, 1 ≤ n ∧ n ≤ 255)
    (free : Byte) : decodeClock maxLevel ((clock.map byteOf).getD free) = some clock := by
  unfold decodeClock
  cases clock with
  | none => rw [if_neg fun above => absurd (there.2 above) Bool.false_ne_true]
  | some n =>
    rw [if_pos (there.1 rfl), Option.map_some, Option.getD_some, decodeBetween_byteOf (by decide) (range n rfl)]
    rfl

/-- R172: the boost settle is read with a maximum level of BOOST. -/
theorem decodeBoost_body {maxLevel : Level} {boost : Option Nat} (there : boost.isSome = true ↔ maxLevel = .boost)
    (range : ∀ n ∈ boost, n ≤ 255) (free : Byte) : decodeBoost maxLevel ((boost.map byteOf).getD free) = boost := by
  unfold decodeBoost
  cases boost with
  | none => rw [if_neg fun top => absurd (there.2 top) Bool.false_ne_true]
  | some n =>
    rw [if_pos (there.1 rfl), Option.map_some, Option.getD_some, toNat_byteOf (range n rfl)]

section
variable {d : Managed} {r : DomainRecord} {body : List Byte}

theorem length_recordBody (h : recordBody d r body) : body.length = 10 := by
  obtain ⟨clock, boost, rfl⟩ := h
  rfl

/-- R172: a record in range is read back from its body. -/
theorem decodeRecord_body (range : r.inRange d) (h : recordBody d r body) : decodeRecord d r.maxLevel body = some r := by
  obtain ⟨clock, boost, rfl⟩ := h
  obtain ⟨lower, floor, -, lowWeight, highWeight, lowTimeout, highTimeout, settle, clockThere, clockRange, boostThere,
    boostRange, lowDrain, highDrain⟩ := range
  simp only [decodeRecord, byteAt, List.getD_cons_zero, List.getD_cons_succ, decodeDomain_byteOf,
    decodeUpLevel_code floor, decodeBetween_byteOf (by decide : 8 ≤ 255) ⟨lowWeight, highWeight⟩,
    decodeBetween_byteOf (Nat.le_refl 255) ⟨lowTimeout, highTimeout⟩,
    decodeBetween_byteOf (Nat.le_refl 255) ⟨lowDrain, highDrain⟩, decodeClock_body clockThere clockRange,
    decodeBoost_body boostThere boostRange, toNat_byteOf settle, if_pos lower]

/-- R172: a maximum level above OFF asks for a record. -/
theorem decodeDefineDomain_up {maxLevel : Level} (domain : decodeManaged (byteAt body 0) = some d)
    (level : decodeLevel (byteAt body 3) = some maxLevel) (up : maxLevel ≠ .off) :
    decodeDefineDomain body = (decodeRecord d maxLevel body).map fun r => (d, some r) := by
  unfold decodeDefineDomain
  rw [domain, level]
  cases maxLevel with
  | off => exact absurd rfl up
  | _ => rfl

/-- R172: a body that asks for a record in range passes the range pass. -/
theorem decodeDefineDomain_record (range : r.inRange d) (h : recordBody d r body) :
    decodeDefineDomain body = some (d, some r) := by
  have record := decodeRecord_body range h
  obtain ⟨-, -, up, -⟩ := range
  obtain ⟨clock, boost, rfl⟩ := h
  rw [decodeDefineDomain_up (d := d) (maxLevel := r.maxLevel) _ _ up, record]
  · rfl
  · exact decodeManaged_managedCode d
  · exact decodeLevel_code r.maxLevel

end

/-- R172: with a maximum level of OFF no other field is read. -/
theorem decodeDefineDomain_off (d : Managed) (x1 x2 : Byte) (rest : List Byte) :
    decodeDefineDomain (managedCode d :: x1 :: x2 :: 0 :: rest) = some (d, none) := by
  have domain : byteAt (managedCode d :: x1 :: x2 :: 0 :: rest) 0 = managedCode d := rfl
  have level : byteAt (managedCode d :: x1 :: x2 :: 0 :: rest) 3 = Level.off.code := rfl
  simp only [decodeDefineDomain, domain, level, decodeManaged_managedCode, decodeLevel_code]

theorem toNat_managedCode (d : Managed) : (managedCode d).toNat = d.val + 1 :=
  toNat_of_decodeManaged (decodeManaged_managedCode d)

/-- R172: a parent at or above the domain is out of range. -/
theorem decodeDefineDomain_parent {d : Managed} {x1 b : Byte} (up : 0 < b.toNat) (above : d.val < x1.toNat) (x2 : Byte)
    (rest : List Byte) : decodeDefineDomain (managedCode d :: x1 :: x2 :: b :: rest) = none := by
  rw [Option.eq_none_iff_forall_ne_some]
  intro x passes
  obtain ⟨-, -, fields⟩ := range_of_decodeDefineDomain passes
  simp only [byteAt, List.getD_cons_zero, List.getD_cons_succ, toNat_managedCode] at fields
  have lower := (fields (Nat.ne_of_gt up)).1
  omega

/-- R172: D0 has no record. -/
theorem decodeDefineDomain_root (rest : List Byte) : decodeDefineDomain (0 :: rest) = none := rfl

/-! ### DEFINE_DOMAIN -/

section
variable {s : State} {d : Managed} {r : Option DomainRecord} {body : List Byte}

/-- R173: the record becomes the whole record of the domain, or the definition goes. -/
theorem doDefineDomain_written (decoded : decodeDefineDomain body = some (d, r)) (sound : (s.engine d).state ≠ .fault)
    (p : Agent) : doDefineDomain p body s = accept [] (s.setRecord d r) := by
  simp only [doDefineDomain, decoded, if_neg sound]

/-- R7: the record of a domain in FAULT stands. -/
theorem doDefineDomain_fault (decoded : decodeDefineDomain body = some (d, r)) (fault : (s.engine d).state = .fault)
    (p : Agent) : doDefineDomain p body s = refuse .domainFault s := by
  simp only [doDefineDomain, decoded, if_pos fault]

end

/-- Settles O29: the body is read back (`decodeDefineDomain_record`, `decodeDefineDomain_off`) and written unless the engine
is in FAULT; a parent that is not lower, and D0, fail the range pass. -/
theorem defineDomainWritesTheRecord : Obligations.DefineDomainWritesTheRecord := by
  intro s seq d r body x1 x2 x4 x5 x6 x7 x8 x9 executes setup range asked
  have run : ∀ {body : List Byte} {t : State} {st : Status}, body.length = 10 →
      doDefineDomain 0 body s = (t, { status := st, body := [] }) →
      exec (.defineDomain 0 seq body) s = .next (answer 0 seq st [] t) :=
    fun length own => exec_supervisor (r := .defineDomain) executes (if_pos setup) length own
  have record := decodeDefineDomain_record range asked
  have length := length_recordBody asked
  have removal := decodeDefineDomain_off d x1 x2 [x4, x5, x6, x7, x8, x9]
  refine ⟨fun sound => ⟨?_, ?_⟩, fun fault => ⟨?_, ?_⟩, fun b up _ above => ?_, ?_⟩
  · exact run length (doDefineDomain_written record sound 0)
  · exact run rfl (doDefineDomain_written removal sound 0)
  · exact run length (doDefineDomain_fault record fault 0)
  · exact run rfl (doDefineDomain_fault removal fault 0)
  · exact run rfl (doDefineDomain_none (decodeDefineDomain_parent up above x2 _) 0 s)
  · exact run rfl (doDefineDomain_none (decodeDefineDomain_root _) 0 s)

/-! ### DEFINE_WAKE -/

section
variable {k : LineId} {enabled : Bool} {edge : Edge} {agent : Agent} {home : Domain} {template : Option Template}
  {body : List Byte}

/-- R174: every DEFINE_WAKE body has ten bytes, of which the first five carry the fields of every line. -/
theorem wakeBody_bytes (h : wakeBody k enabled edge agent home template body) : body.length = 10 ∧
    byteAt body 0 = byteOf k.val ∧ byteAt body 1 = yesNoCode enabled ∧ byteAt body 2 = edge.code ∧
    byteAt body 3 = byteOf agent.val ∧ byteAt body 4 = byteOf home.val := by
  cases template with
  | none =>
    obtain ⟨x, y, z, u, rfl⟩ := h
    exact ⟨rfl, rfl, rfl, rfl, rfl, rfl⟩
  | some t =>
    obtain rfl := h
    exact ⟨rfl, rfl, rfl, rfl, rfl, rfl⟩

/-- R174: a template in range is read where it is said to be present. -/
theorem decodeTemplate_present {t : Template} (range : t.inRange) (present : byteAt body 5 = yesNoCode true)
    (domain : byteAt body 6 = managedCode t.domain) (level : byteAt body 7 = t.level.code)
    (time : fieldAt body 8 2 = t.duration) : decodeTemplate body = some (some t) := by
  obtain ⟨up, duration⟩ := range
  simp only [decodeTemplate, present, domain, level, time, decodeYesNo_code, decodeManaged_managedCode,
    decodeUpLevel_code up, decodeBetween_eq_some.2 ⟨rfl, duration⟩]

/-- R174: the template of a body is read back; without one its bytes are not read. -/
theorem decodeTemplate_body (range : ∀ t ∈ template, t.inRange)
    (h : wakeBody k enabled edge agent home template body) : decodeTemplate body = some template := by
  cases template with
  | none =>
    obtain ⟨x, y, z, u, rfl⟩ := h
    rfl
  | some t =>
    obtain rfl := h
    obtain ⟨up, low, high⟩ := range t rfl
    have time := fieldAt_bigEndian [byteOf k.val, yesNoCode enabled, edge.code, byteOf agent.val, byteOf home.val, 1,
      managedCode t.domain, t.level.code] [] 2 t.duration (by omega)
    rw [List.append_nil] at time
    exact decodeTemplate_present ⟨up, low, high⟩ rfl rfl rfl time

/-- R121, R174: a body in range passes the range pass, and the record that it asks for has no link and no baseline. -/
theorem decodeDefineWake_body (range : ∀ t ∈ template, t.inRange)
    (h : wakeBody k enabled edge agent home template body) : decodeDefineWake body = some (k,
      { enabled := enabled, edge := edge, agent := agent, home := home, template := template, link := none,
        baseline := none }) := by
  obtain ⟨-, line, switch, edges, bound, domain⟩ := wakeBody_bytes h
  simp only [decodeDefineWake, line, switch, edges, bound, domain, decodeTemplate_body range h, decodeLine_byteOf,
    decodeYesNo_code, decodeEdge_code, decodeAgent_byteOf, decodeDomain_byteOf]

end

theorem doDefineWake_written {body : List Byte} {k : LineId} {w : WakeLine} (decoded : decodeDefineWake body = some (k, w))
    (p : Agent) (s : State) : doDefineWake p body s = accept [] (s.setWake k w) := by
  simp only [doDefineWake, decoded]

/-! ### QUERY_WAKE -/

theorem doQueryWake_line (k : LineId) (p : Agent) (s : State) :
    doQueryWake p [byteOf k.val] s = accept (wakeReport s k) s := by
  have byte : byteAt [byteOf k.val] 0 = byteOf k.val := rfl
  simp only [doQueryWake, byte, decodeLine_byteOf]

theorem doQueryWake_none {b : Byte} (above : 7 < b.toNat) (p : Agent) (s : State) :
    doQueryWake p [b] s = refuse .badValue s := by
  have byte : byteAt [b] 0 = b := rfl
  simp only [doQueryWake, byte, decodeLine_none above]

/-- Settles O30: the body of DEFINE_WAKE is read back (`decodeDefineWake_body`) and written; QUERY_WAKE is admitted always,
and its owner answers the report of the line, byte by byte as R200 says with and without a template and a link. -/
theorem wakeRecordsAreWrittenAndReported : Obligations.WakeRecordsAreWrittenAndReported := by
  refine ⟨fun s seq k enabled edge agent home template body executes setup range asked => ?_,
    fun s seq executes => ⟨fun k => ?_, fun b above => ?_⟩⟩
  · have decoded := decodeDefineWake_body range asked
    exact exec_supervisor (r := .defineWake) executes (if_pos setup) (wakeBody_bytes asked).1
      (doDefineWake_written decoded 0 s)
  · refine (exec_supervisor (r := .queryWake) executes rfl rfl (doQueryWake_line k 0 s)).trans ?_
    unfold wakeReport
    cases (s.wake k).template <;> cases (s.wake k).link <;> rfl
  · exact exec_supervisor (r := .queryWake) executes rfl rfl (doQueryWake_none above 0 s)

end Sys2Proof.Machine
end

section
/-! SET_WAKE_ENABLE, START and RESTART: the checks in their order, and what each leaves (R43, R113, R122, R123, R134, R177,
R179 to R182). -/

namespace Sys2Proof.Machine

/-! ### SET_WAKE_ENABLE -/

/-- R177: the body of SET_WAKE_ENABLE is read back. -/
theorem decodeSetWakeEnable_body (k : LineId) (enable : Bool) :
    decodeSetWakeEnable [byteOf k.val, yesNoCode enable] = some (k, enable) := by
  have line : byteAt [byteOf k.val, yesNoCode enable] 0 = byteOf k.val := rfl
  have switch : byteAt [byteOf k.val, yesNoCode enable] 1 = yesNoCode enable := rfl
  simp only [decodeSetWakeEnable, line, switch, decodeLine_byteOf, decodeYesNo_code]

/-- R122: the line is enabled or disabled, with no link; its baseline is left to the refresh of the detectors. -/
def switchLine (k : LineId) (enable : Bool) (s : State) : State :=
  s.setWake k { s.wake k with enabled := enable, link := none }

section
variable {s : State} {k : LineId}

theorem wake_switchLine (k : LineId) (enable : Bool) (s : State) :
    (switchLine k enable s).wake k = { s.wake k with enabled := enable, link := none } := wake_setWake_self _ _ _

/-- R122: a line that fails the check of START is not enabled. -/
theorem doSetWakeEnable_invalid (disabled : (s.wake k).enabled = false) (invalid : lineValid s (s.wake k) = false)
    (p : Agent) : doSetWakeEnable p [byteOf k.val, yesNoCode true] s = refuseWith .badConfig (badLineBody k) s := by
  simp only [doSetWakeEnable, decodeSetWakeEnable_body, if_pos (And.intro trivial (And.intro disabled invalid))]

/-- R177: a line that is as asked is left. -/
theorem doSetWakeEnable_same {enable : Bool} (same : (s.wake k).enabled = enable) (p : Agent) :
    doSetWakeEnable p [byteOf k.val, yesNoCode enable] s =
      accept [yesNoCode enable, yesNoCode (s.detectorActive k)] s := by
  have valid : ¬ (enable = true ∧ (s.wake k).enabled = false ∧ lineValid s (s.wake k) = false) :=
    fun ⟨enabled, disabled, _⟩ => Bool.false_ne_true (disabled.symm.trans (same.trans enabled))
  rw [doSetWakeEnable, decodeSetWakeEnable_body]
  dsimp only
  rw [if_neg valid, if_pos same.symm, same]

/-- R122, R177: a line that may change is switched, and the detectors follow. -/
theorem doSetWakeEnable_switched {enable : Bool} (other : (s.wake k).enabled ≠ enable)
    (valid : enable = true → lineValid s (s.wake k) = true) (p : Agent) :
    doSetWakeEnable p [byteOf k.val, yesNoCode enable] s =
      accept [yesNoCode enable, yesNoCode ((switchLine k enable s).detectorActive k)]
        (refreshDetectors (switchLine k enable s)) := by
  have passes : ¬ (enable = true ∧ (s.wake k).enabled = false ∧ lineValid s (s.wake k) = false) :=
    fun ⟨enabled, _, invalid⟩ => Bool.false_ne_true (invalid.symm.trans (valid enabled))
  have enabled : ((refreshDetectors (switchLine k enable s)).wake k).enabled = enable := by
    rw [wake_refreshDetectors, (refreshDetector_fields _ k).1, wake_switchLine]
  simp only [doSetWakeEnable, decodeSetWakeEnable_body, if_neg passes, if_neg (Ne.symm other)]
  rw [← switchLine, enabled, detectorActive_refreshDetectors]

/-- R113: the activity of the detector of a line that has been switched in RUN. -/
theorem detectorActive_switchLine (running : s.partState = .run) (enable : Bool) :
    (switchLine k enable s).detectorActive k = (enable && decide (1 ≤ (s.assured (s.wake k).home).num)) := by
  have assured : (switchLine k enable s).assured = s.assured := rfl
  have part : (switchLine k enable s).partState = .run := running
  rw [State.detectorActive, part, assured, wake_switchLine]
  rfl

/-- R113: where the baselines follow the detectors, a change of one line's record makes only that line's detector follow. -/
theorem refreshDetectors_setWake (detectors : detectorLaw s) (k : LineId) (w : WakeLine) :
    refreshDetectors (s.setWake k w) = s.setWake k (refreshDetector (s.setWake k w) k) := by
  have wakes : Vector.ofFn (refreshDetector (s.setWake k w)) =
      (s.setWake k (refreshDetector (s.setWake k w) k)).wakes := by
    refine Vector.ext fun j hj => ?_
    have line : (s.setWake k (refreshDetector (s.setWake k w) k)).wakes[j] =
        (s.setWake k (refreshDetector (s.setWake k w) k)).wake ⟨j, hj⟩ := rfl
    rw [Vector.getElem_ofFn, line, wake_setWake]
    split
    · rename_i here; rw [here]
    · rename_i other
      rw [refreshDetector_setWake other, ← wake_refreshDetectors, refreshDetectors_of_law detectors]
  rw [refreshDetectors_eq, wakes]
  rfl

/-- R113, R114, R122: what the switching of a line leaves. -/
theorem refreshDetectors_switchLine (detectors : detectorLaw s) (running : s.partState = .run) (enable : Bool)
    (fresh : enable = true → (s.wake k).baseline = none) : refreshDetectors (switchLine k enable s) =
      s.setWake k { s.wake k with
        enabled := enable, link := none,
        baseline := if enable = true ∧ 1 ≤ (s.assured (s.wake k).home).num then some s.lines[k] else none } := by
  rw [switchLine, refreshDetectors_setWake detectors, ← switchLine]
  refine congrArg (s.setWake k) ?_
  unfold refreshDetector
  simp only [detectorActive_switchLine running, wake_switchLine, Bool.and_eq_true, decide_eq_true_eq]
  split
  · rename_i active
    rw [fresh active.1]
    rfl
  · rfl

theorem baseline_of_disabled (detectors : detectorLaw s) (disabled : (s.wake k).enabled = false) :
    (s.wake k).baseline = none := by
  have absent := detectors k
  rwa [State.detectorActive, disabled, Bool.and_false, Bool.false_and, Option.isSome_eq_false_iff,
    Option.isNone_iff_eq_none] at absent

end

/-- Settles O32: a line that is to change is switched (`doSetWakeEnable_switched`), and the refresh of the detectors sets the
baseline of that line alone (`refreshDetectors_switchLine`). -/
theorem wakeEnableSwitchesTheLine : Obligations.WakeEnableSwitchesTheLine := by
  intro s seq k executes running detectors
  have run : ∀ {enable : Bool} {t : State} {st : Status} {reply : List Byte},
      doSetWakeEnable 0 [byteOf k.val, yesNoCode enable] s = (t, { status := st, body := reply }) →
      exec (.setWakeEnable 0 seq [byteOf k.val, yesNoCode enable]) s = .next (answer 0 seq st reply t) :=
    fun own => exec_supervisor (r := .setWakeEnable) executes (if_pos running) rfl own
  refine ⟨fun disabled checked => ?_, fun disabled unchecked => ?_, fun enabled => ⟨?_, ?_⟩, fun disabled => ?_⟩
  · have switched := doSetWakeEnable_switched (s := s) (k := k) (enable := true) (by simp [disabled])
      (fun _ => (lineChecked_iff s k).1 checked) 0
    rw [detectorActive_switchLine running,
      refreshDetectors_switchLine detectors running true fun _ => baseline_of_disabled detectors disabled] at switched
    simp only [true_and] at switched
    exact run (enable := true) switched
  · have invalid : lineValid s (s.wake k) = false := by
      rw [← Bool.not_eq_true, ← lineChecked_iff]
      exact unchecked
    exact run (enable := true) (doSetWakeEnable_invalid disabled invalid 0)
  · have switched := doSetWakeEnable_switched (s := s) (k := k) (enable := false) (by simp [enabled]) nofun 0
    rw [detectorActive_switchLine running, refreshDetectors_switchLine detectors running false nofun] at switched
    simp only [Bool.false_eq_true, false_and, if_false] at switched
    exact run (enable := false) switched
  · exact run (enable := true) (doSetWakeEnable_same enabled 0)
  · have same := doSetWakeEnable_same disabled 0
    have inactive : s.detectorActive k = false := by simp [State.detectorActive, disabled]
    rw [inactive] at same
    exact run (enable := false) same

/-! ### START -/

/-- The first of an ascending list with a property is the lowest of it that has the property. -/
theorem find?_lowest {n : Nat} {l : List (Fin n)} {p : Fin n → Bool} {a : Fin n} (ascending : l.Pairwise (· < ·))
    (mem : a ∈ l) (here : p a = true) (below : ∀ b < a, p b = false) : l.find? p = some a := by
  induction l with
  | nil => cases mem
  | cons b l ih =>
    obtain ⟨first, ascending⟩ := List.pairwise_cons.1 ascending
    rcases List.mem_cons.1 mem with rfl | later
    · exact List.find?_cons_of_pos here
    · rw [List.find?_cons_of_neg (by simp [below b (first a later)])]
      exact ih ascending later

section
variable {s : State}

/-- R179, order 1. -/
theorem doStart_fault {d : Managed} (fault : (s.engine d).state = .fault) (p : Agent) (body : List Byte) :
    doStart p body s = refuse .domainFault s := by
  have any : allManaged.any (fun d => (s.engine d).state == .fault) = true :=
    List.any_eq_true.2 ⟨d, mem_allManaged d, by simp [fault]⟩
  rw [doStart, if_pos any]

theorem find?_domain {d : Managed} (fails : ¬ domainChecked s d) (before : ∀ e < d, domainChecked s e) :
    allManaged.find? (fun d => !domainPasses s d) = some d := by
  rw [domainChecked_iff] at fails
  exact find?_lowest (by decide) (mem_allManaged d) (by simp [fails])
    fun e below => by simp [(domainChecked_iff s e).1 (before e below)]

theorem find?_domain_none (checked : ∀ d, domainChecked s d) : allManaged.find? (fun d => !domainPasses s d) = none :=
  List.find?_eq_none.2 fun d _ => by simp [(domainChecked_iff s d).1 (checked d)]

/-- R179, order 3: an enabled line passes by the check of a line. -/
theorem linePasses_iff (s : State) (k : LineId) :
    linePasses s k = true ↔ ((s.wake k).enabled = true → lineChecked s k) := by
  rw [lineChecked_iff, linePasses]
  cases (s.wake k).enabled <;> simp

theorem find?_line {k : LineId} (enabled : (s.wake k).enabled = true) (fails : ¬ lineChecked s k)
    (before : ∀ j < k, (s.wake j).enabled = true → lineChecked s j) :
    allLines.find? (fun k => !linePasses s k) = some k := by
  have here : ¬ linePasses s k = true := fun passes => fails ((linePasses_iff s k).1 passes enabled)
  exact find?_lowest (by decide) (mem_allLines k) (by simp [here])
    fun j below => by simp [(linePasses_iff s j).2 (before j below)]

theorem find?_line_none (checked : ∀ k, (s.wake k).enabled = true → lineChecked s k) :
    allLines.find? (fun k => !linePasses s k) = none :=
  List.find?_eq_none.2 fun k _ => by simp [(linePasses_iff s k).2 (checked k)]

/-- R113, R180: with no baseline before, RUN begins with the levels of the lines whose detectors become active. -/
theorem refreshDetectors_start (fresh : ∀ k, (s.wake k).baseline = none) :
    refreshDetectors { s with partState := .run } = { s with
      partState := .run
      wakes := Vector.ofFn fun k =>
        if (s.wake k).enabled = true ∧ 1 ≤ (s.assured (s.wake k).home).num then
          { s.wake k with baseline := some s.lines[k] }
        else s.wake k } := by
  rw [refreshDetectors_eq]
  refine congrArg (fun wakes => { s with partState := .run, wakes := Vector.ofFn wakes }) (funext fun k => ?_)
  have line : ({ s with partState := .run } : State).wake k = s.wake k := rfl
  have active : ({ s with partState := .run } : State).detectorActive k = true ↔
      (s.wake k).enabled = true ∧ 1 ≤ (s.assured (s.wake k).home).num :=
    Bool.and_eq_true_iff.trans (and_congr Iff.rfl decide_eq_true_iff)
  unfold refreshDetector
  simp only [active, line, fresh k, Option.getD_none]
  split
  · rfl
  · rw [← fresh k]

theorem not_any_fault (sound : ∀ d, (s.engine d).state ≠ .fault) :
    ¬ allManaged.any (fun d => (s.engine d).state == .fault) = true := by simp [sound]

/-- R179, order 2. -/
theorem doStart_domain {d : Managed} (sound : ∀ d, (s.engine d).state ≠ .fault) (fails : ¬ domainChecked s d)
    (before : ∀ e < d, domainChecked s e) (p : Agent) (body : List Byte) :
    doStart p body s = refuseWith .badConfig (badDomainBody d) s := by
  rw [doStart, if_neg (not_any_fault sound)]
  simp only [find?_domain fails before]

/-- R179, order 3. -/
theorem doStart_line {k : LineId} (sound : ∀ d, (s.engine d).state ≠ .fault) (domains : ∀ d, domainChecked s d)
    (enabled : (s.wake k).enabled = true) (fails : ¬ lineChecked s k)
    (before : ∀ j < k, (s.wake j).enabled = true → lineChecked s j) (p : Agent) (body : List Byte) :
    doStart p body s = refuseWith .badConfig (badLineBody k) s := by
  rw [doStart, if_neg (not_any_fault sound)]
  simp only [find?_domain_none domains, find?_line enabled fails before]

/-- R180. -/
theorem doStart_runs (sound : ∀ d, (s.engine d).state ≠ .fault) (domains : ∀ d, domainChecked s d)
    (lines : ∀ k, (s.wake k).enabled = true → lineChecked s k) (p : Agent) (body : List Byte) :
    doStart p body s = accept [] (refreshDetectors { s with partState := .run }) := by
  rw [doStart, if_neg (not_any_fault sound)]
  simp only [find?_domain_none domains, find?_line_none lines]

end

/-- Settles O33: the owner's answer is that of the first check that fails (`doStart_fault`, `doStart_domain`,
`doStart_line`), or RUN (`doStart_runs`), which begins with the baselines of `refreshDetectors_start`. -/
theorem startChecksAndRuns : Obligations.StartChecksAndRuns := by
  intro s seq executes setup
  have run : ∀ {t : State} {st : Status} {reply : List Byte}, doStart 0 [] s = (t, { status := st, body := reply }) →
      exec (.start 0 seq []) s = .next (answer 0 seq st reply t) :=
    fun own => exec_supervisor (r := .start) executes (if_pos setup) rfl own
  refine ⟨fun ⟨d, fault⟩ => run (doStart_fault fault 0 []), fun sound => ⟨fun d fails before => ?_, fun domains =>
    ⟨fun k enabled fails before => ?_, fun lines fresh => ?_⟩⟩⟩
  · exact run (doStart_domain sound fails before 0 [])
  · exact run (doStart_line sound domains enabled fails before 0 [])
  · rw [← refreshDetectors_start fresh]
    exact run (doStart_runs sound domains lines 0 [])

/-! ### RESTART -/

/-- R39: a freeing does not depend on which of the FREE slots are named. -/
theorem withFreed_congr {first later : SlotId → Bool} {s : State}
    (same : ∀ i, (s.lease i).isSome = true → first i = later i) : withFreed first s = withFreed later s := by
  have used : ∀ i, (first i && (s.lease i).isSome) = (later i && (s.lease i).isSome) := by
    intro i
    cases there : (s.lease i).isSome with
    | false => simp
    | true => rw [same i there]
  have asked : ∀ i (p : Lease → Bool), (first i && (s.lease i).any p) = (later i && (s.lease i).any p) := by
    intro i p
    cases lease : s.lease i with
    | none => simp
    | some l => rw [same i (by simp [lease])]
  unfold withFreed
  simp only [State.liveOn, State.watches, liveAt_eq_any, used, asked]

/-- R43, R181: RESTART frees every slot. -/
theorem freeSlots_usedSlots (s : State) : freeSlots s.usedSlots s = withFreed (fun _ => true) s := by
  rw [freeSlots_eq_withFreed]
  refine withFreed_congr fun i used => ?_
  exact List.contains_iff_mem.2 (List.mem_filter.2 ⟨mem_allSlots i, used⟩)

/-- R123: outside RUN the refresh of the detectors drops every baseline. -/
theorem refreshDetectors_of_not_run {s : State} (stopped : s.partState ≠ .run) :
    refreshDetectors s = { s with wakes := s.wakes.map fun w => { w with baseline := none } } := by
  rw [refreshDetectors_eq]
  refine congrArg (fun wakes => { s with wakes := wakes }) (Vector.ext fun k hk => ?_)
  rw [Vector.getElem_ofFn, Vector.getElem_map, refreshDetector, detectorActive_of_not_run stopped]
  rfl

/-- R181, R182: the part state that RESTART leads to. -/
def stateAfterRestart (s : State) : PartState := if ∀ d, (s.engine d).down = true then .setup else .stopping

theorem stateAfterRestart_ne_run (s : State) : stateAfterRestart s ≠ .run := by
  unfold stateAfterRestart
  split <;> nofun

/-- R182: STOPPING that begins with every domain down ends at once. -/
theorem endStopping_begun (s : State) :
    endStopping { s with partState := .stopping } = { s with partState := stateAfterRestart s } := by
  have down : ({ s with partState := .stopping } : State).allDown = true ↔ ∀ d, (s.engine d).down = true := allDown_iff _
  rw [endStopping_eq]
  simp only [stateAfterRestart, down, true_and]

/-- R123, R134, R181: what RESTART does once the slots are free. -/
theorem refreshDetectors_stopped (s : State) :
    refreshDetectors (endStopping { emptyQueues s with partState := .stopping }) = { s with
      partState := stateAfterRestart s
      queues := Vector.replicate 4 []
      wakes := s.wakes.map fun w => { w with baseline := none } } := by
  have after : stateAfterRestart (emptyQueues s) = stateAfterRestart s := rfl
  rw [endStopping_begun, after]
  exact refreshDetectors_of_not_run (stateAfterRestart_ne_run s)

/-- R43, R123, R134, R181, R182: what RESTART leaves. -/
theorem restartPart_eq (s : State) : restartPart s =
    { withFreed (fun _ => true) s with
      partState := stateAfterRestart s
      queues := Vector.replicate 4 []
      wakes := (withFreed (fun _ => true) s).wakes.map fun w => { w with baseline := none } } := by
  have after : stateAfterRestart (withFreed (fun _ => true) s) = stateAfterRestart s := by
    rw [stateAfterRestart, (leaseSide_withFreed _ s).engine]
    rfl
  rw [restartPart, freeSlots_usedSlots, refreshDetectors_stopped, after]

/-- Settles O34: the request is its owner's, and `restartPart_eq` is what it leaves. -/
theorem restartFreesEverything : Obligations.RestartFreesEverything := by
  intro s seq executes running
  have own : doRestart 0 [] s = accept [byteOf s.usedSlots.length, (stateAfterRestart s).code] (restartPart s) := by
    rw [doRestart, restartPart_eq]
  rw [restartPart_eq] at own
  exact exec_supervisor (r := .restart) executes (if_pos running) rfl own

end Sys2Proof.Machine
end

section
/-! The part reset: the reset values, the laws that they keep, the release of RESETN, and the part while a reset is held
(R8, R43, R48, R72, R101, R111, R124, R169, R187, R196). -/

namespace Sys2Proof.Machine

/-! ### The reset values -/

@[simp] theorem record_reset (d : Managed) : State.reset.record d = none := by simp [State.record, State.reset]
@[simp] theorem engine_reset (d : Managed) : State.reset.engine d = Engine.reset := by simp [State.engine, State.reset]
@[simp] theorem report_reset (d : Managed) : State.reset.report d = none := by simp [State.report, State.reset]
@[simp] theorem slot_reset (i : SlotId) : State.reset.slot i = { generation := 0, lease := none } := by
  simp [State.slot, State.reset]
@[simp] theorem lease_reset (i : SlotId) : State.reset.lease i = none := by rw [State.lease, slot_reset]
@[simp] theorem list_reset (d : Managed) : State.reset.list d = [] := by simp [State.list, State.reset]
@[simp] theorem window_reset (w : WindowId) : State.reset.window w = { range := none, users := 0 } := by
  simp [State.window, State.reset]
@[simp] theorem wake_reset (k : LineId) : State.reset.wake k = WakeLine.reset := by simp [State.wake, State.reset]
@[simp] theorem queue_reset (a : Agent) : State.reset.queue a = [] := by simp [State.queue, State.reset]
@[simp] theorem port_reset (p : Agent) : State.reset.port p = Port.reset := by simp [State.port, State.reset]

/-- Settles O3: each block's read, by its lemma. -/
theorem resetStateIsSetupWithNothingHeld : Obligations.ResetStateIsSetupWithNothingHeld :=
  ⟨rfl, fun d => ⟨record_reset d, engine_reset d, report_reset d, list_reset d, outputs_of_undefined (record_reset d)⟩,
    slot_reset, rfl, rfl, window_reset, wake_reset, fun a => ⟨queue_reset a, by simp [State.attention]⟩,
    fun p => by simp [Port.reset], rfl⟩

/-! ### The laws at reset -/

theorem configurationLaw_reset : configurationLaw State.reset :=
  ⟨fun d => by simp, fun k => by simp [WakeLine.reset], fun w => by simp⟩

theorem watches_reset (w : WindowId) (i : SlotId) : State.reset.watches w i = false := by simp [State.watches]

theorem tableLaw_reset : tableLaw State.reset :=
  ⟨fun d => by simp [State.liveOn], fun _ => lease_reset, fun w => by simp [funext (watches_reset w)],
    fun a => by simp [State.slotsOf], fun k => by simp [WakeLine.reset], fun i => by simp⟩

theorem allDown_reset : State.reset.allDown = true :=
  (allDown_iff _).2 fun d => by rw [engine_reset]; rfl

theorem timerLaw_reset : timerLaw State.reset := fun d => by simp [Engine.reset, Engine.timed]

theorem levelLaw_reset : levelLaw State.reset := fun d => by simp

/-- R72, R73: no domain holds a weight, and the whole budget is free. -/
theorem rampLaw_reset : rampLaw State.reset := by
  have weights : State.reset.heldWeight = fun _ => 0 := funext fun d => by
    simp [State.heldWeight, Engine.reset, EngineState.holdsWeight]
  refine ⟨?_, List.nodup_nil, fun d => iff_of_false List.not_mem_nil ?_⟩
  · rw [budgetLaw, weights]
    rfl
  · rw [engine_reset]
    nofun

theorem engineLaw_reset : engineLaw State.reset := by
  obtain ⟨faults, floors⟩ := laws_of_down allDown_reset list_reset
  exact ⟨fun d _ => by rw [engine_reset]; rfl, timerLaw_reset, levelLaw_reset, fun _ => allDown_reset, nofun,
    rampLaw_reset, faults, floors⟩

theorem detectorLaw_reset : detectorLaw State.reset := fun k => by
  rw [wake_reset, detectorActive_of_not_run (by decide)]
  rfl

/-- Settles O51: the laws of each block hold of its reset values. -/
theorem resetStateIsLawful : Obligations.ResetStateIsLawful :=
  ⟨configurationLaw_reset, fun running => absurd rfl running, tableLaw_reset, fun i => by simp, fun i => by simp,
    engineLaw_reset, fun a => by simp, detectorLaw_reset, fun p => by simp [Port.reset], fun p => by simp [Port.reset],
    nofun⟩

/-! ### The reset and its release -/

/-- R71, R169: what a part reset leaves, with the changes at the pins said of the state that it leaves. -/
theorem resetPart_eq (s : State) : resetPart s = { State.reset with
    resetHeld := true, pgood := s.pgood, ckok := s.ckok, lines := s.lines,
    pinLog := s.pinLog ++ pinChanges descendingManaged s (resetPart s), pending := s.pending } := by
  have pins : pinChanges descendingManaged s (resetPart s) = pinChanges descendingManaged s State.reset :=
    pinChanges_congr rfl rfl
  rw [pins]
  rfl

theorem heldResetLaw_resetPart (s : State) : heldResetLaw (resetPart s) := fun _ => rfl

/-- R100, R169, R196: the release changes what waits for a deassertion, port by port. -/
theorem releaseReset_eq (chipSelects : Vector Bool 4) (tfrm : Bool) (s : State) : releaseReset chipSelects tfrm s =
    { s with
      resetHeld := false
      tapAwaits := tfrm
      ports := Vector.ofFn fun q => { s.port q with awaitsDeselect := chipSelects[q] } } := by
  have ports : s.ports.zipWith (fun p cs => { p with awaitsDeselect := cs }) chipSelects =
      Vector.ofFn fun q => { s.port q with awaitsDeselect := chipSelects[q] } :=
    Vector.ext fun q hq => by simp [State.port]
  rw [releaseReset, ports]

/-! ### What leaves the held reset -/

theorem leaseSide.resetHeld {s t : State} (h : leaseSide s t) : t.resetHeld = s.resetHeld := by
  obtain ⟨⟨_, _, _, _, _, rfl⟩, _⟩ := h
  rfl

theorem moveSide.resetHeld {s t : State} (h : moveSide s t) : t.resetHeld = s.resetHeld := by
  obtain ⟨_, _, _, _, _, rfl⟩ := h
  rfl

theorem resetHeld_refreshDetectors (s : State) : (refreshDetectors s).resetHeld = s.resetHeld := by
  rw [refreshDetectors_eq]

theorem resetHeld_closeEvent (order : List Managed) (old new : State) :
    (closeEvent order old new).resetHeld = new.resetHeld := by rw [closeEvent_eq]

/-- An event of the engines, from its moves to its end. -/
theorem Moves.resetHeld_event {s t : State} (h : Moves s t) (order : List Managed) (old : State) :
    (closeEvent order old t).resetHeld = s.resetHeld :=
  (resetHeld_closeEvent order old t).trans h.side.resetHeld

theorem resetHeld_takeFault (d : Managed) (cause : FaultCause) (s : State) :
    (takeFault d cause s).resetHeld = s.resetHeld := by
  obtain ⟨_, side, leases⟩ := faultEvent_sides d cause s
  exact (resetHeld_closeEvent _ s _).trans (leases.side.resetHeld.trans side.moveSide.resetHeld)

theorem resetHeld_takeReport (d : Managed) (s : State) : (takeReport d s).resetHeld = s.resetHeld := by
  unfold takeReport
  split
  · exact (leaseSide.foldl _ (fun t i => leaseSide_reportLease _ i t) _ (s.setReport d none)).resetHeld
  · rfl

theorem resetHeld_takeEdge (k : LineId) (level : Bool) (s : State) : (takeEdge k level s).resetHeld = s.resetHeld := by
  unfold takeEdge
  repeat' split
  case isTrue.isTrue => exact (leaseSide_wakeClaim k _).resetHeld
  all_goals rfl

/-- An input that is acted on in some states alone. -/
theorem resetHeld_guarded {c : Prop} [Decidable c] {s t : State} (h : c → t.resetHeld = s.resetHeld) :
    (if c then t else s).resetHeld = s.resetHeld := by
  split
  · exact h ‹_›
  · rfl

theorem resetHeld_endDrain {d : Managed} {s : State} (at_ : (s.engine d).state = .draining) :
    (endDrain d s).resetHeld = s.resetHeld := by
  unfold endDrain
  split
  · exact resetHeld_takeFault d _ s
  · exact (moves_arrive_of_reaches (.drained at_)).resetHeld_event _ s

theorem resetHeld_lowerTimers (s : State) : (lowerTimers s).resetHeld = s.resetHeld := rfl

theorem resetHeld_restartPart (s : State) : (restartPart s).resetHeld = s.resetHeld := by
  rw [restartPart, resetHeld_refreshDetectors, endStopping_eq]
  exact (leaseSide_freeSlots s.usedSlots s).resetHeld

/-- R138: no owner of a request touches the held reset. -/
theorem resetHeld_own (r : Request) (p : Agent) (body : List Byte) (s : State) :
    (r.own p body s).1.resetHeld = s.resetHeld := by
  cases r
  case status => rfl
  case queryDomain => exact congrArg State.resetHeld (doQueryDomain_state p body s)
  case queryLease => exact congrArg State.resetHeld (doQueryLease_state p body s)
  case listLeases => exact congrArg State.resetHeld (doListLeases_state p body s)
  case queryWake => exact congrArg State.resetHeld (doQueryWake_state p body s)
  case acquire => exact (leaseSide_doAcquire p body s).resetHeld
  case renew => exact (leaseSide_doRenew p body s).resetHeld
  case modify => exact (leaseSide_doModify p body s).resetHeld
  case release => exact (leaseSide_doRelease p body s).resetHeld
  case takeNotice => exact (leaseSide_doTakeNotice p body s).resetHeld
  case detach => exact (leaseSide_detachAgent p s).resetHeld
  case setWindow => exact (leaseSide_doSetWindow p body s).resetHeld
  case clearWindow => exact (leaseSide_doClearWindow p body s).resetHeld
  case revoke => exact (leaseSide_doRevoke p body s).resetHeld
  case evict => exact (leaseSide_doEvict p body s).resetHeld
  case restart => exact resetHeld_restartPart s
  case setWakeEnable =>
    simp only [Request.own, doSetWakeEnable, accept]
    repeat' split
    case h_2.isFalse.isFalse => exact resetHeld_refreshDetectors _
    all_goals rfl
  case start =>
    simp only [Request.own, doStart]
    repeat' split
    case h_2 => exact resetHeld_refreshDetectors _
    all_goals rfl
  case clearFault =>
    simp only [Request.own, doClearFault]
    repeat' split
    case h_2.isFalse.isFalse.isFalse => exact (moves_arrive _ .off _).resetHeld_event _ s
    all_goals rfl
  all_goals
    simp only [Request.own, doDefineDomain, doDefineWake]
    repeat' split
  all_goals rfl

theorem resetHeld_checked (r : Request) (p : Agent) (body : List Byte) (s : State) :
    (checked r r.own p body s).1.resetHeld = s.resetHeld := by
  unfold checked
  split
  · rfl
  · exact resetHeld_own r p body s

theorem resetHeld_requestByCode (code : Byte) (p : Agent) (body : List Byte) (s : State) :
    (requestByCode code p body s).1.resetHeld = s.resetHeld := by
  unfold requestByCode
  split
  · exact resetHeld_checked _ p body s
  · rfl

/-! ### While a reset is held -/

/-- From s to t only the levels at the input pins may differ. -/
def inputSide (s t : State) : Prop := ∃ pgood ckok lines, t = { s with pgood := pgood, ckok := ckok, lines := lines }

/-- A reset that is held in t was held in s, and from s to t only the levels at the input pins may differ (R169; log 12). -/
def heldStill (s t : State) : Prop := t.resetHeld = true → inputSide s t

theorem heldStill.refl (s : State) : heldStill s s := fun _ => ⟨_, _, _, rfl⟩

/-- An event that is taken with no reset held, and leaves it so. -/
theorem heldStill_released {s t : State} (released : ¬ s.resetHeld = true) (kept : t.resetHeld = s.resetHeld) :
    heldStill s t := fun held => absurd (kept.symm.trans held) released

/-- An event that a held reset shuts out. -/
theorem heldStill_unlessHeld {s t : State} (kept : t.resetHeld = s.resetHeld) :
    heldStill s (if s.resetHeld = true then s else t) := by
  split
  · exact .refl s
  · rename_i released
    exact heldStill_released released kept

/-- An input takes its level, and then the event acts on it unless a reset is held. -/
theorem heldStill_input {s u t : State} (input : inputSide s u) (kept : t.resetHeld = u.resetHeld) :
    heldStill s (if s.resetHeld = true then u else t) := by
  split
  · exact fun _ => input
  · rename_i released
    obtain ⟨_, _, _, rfl⟩ := input
    exact heldStill_released released kept

theorem released_of_takesExchange {s : State} {p : Agent} (takes : s.takesExchange p = true) : ¬ s.resetHeld = true := by
  intro held
  simp [State.takesExchange, held] at takes

theorem heldStill_frameEnd {own : Agent → List Byte → State → State × Reply} {p : Agent} {body : List Byte} {s : State}
    (kept : (own p body s).1.resetHeld = s.resetHeld) (seq : Byte) : heldStill s (frameEnd own p seq body s) := by
  unfold frameEnd
  split
  · exact .refl s
  · rename_i takes
    have released := released_of_takesExchange (Bool.not_eq_false _ ▸ takes)
    split
    · exact heldStill_released released rfl
    · split
      · exact .refl s
      · exact heldStill_released released kept

theorem heldStill_request (r : Request) (p : Agent) (seq : Byte) (body : List Byte) (s : State) :
    heldStill s (frameEnd (checked r r.own) p seq body s) := heldStill_frameEnd (resetHeld_checked r p body s) seq

theorem heldStill_byCode (code : Byte) (p : Agent) (seq : Byte) (body : List Byte) (s : State) :
    heldStill s (frameEnd (requestByCode code) p seq body s) := heldStill_frameEnd (resetHeld_requestByCode code p body s) seq

theorem heldStill_exchangeEnd (p : Agent) (bits : List Bool) (s : State) : heldStill s (exchangeEnd p bits s) := by
  unfold exchangeEnd
  split
  · exact .refl s
  · split
    · rename_i takes
      exact heldStill_released (released_of_takesExchange takes) rfl
    · exact .refl s
  · exact heldStill_byCode _ p _ _ s

theorem heldStill_takeTapWord (bits : List Bool) (s : State) : heldStill s (takeTapWord bits s) := by
  unfold takeTapWord
  split
  · exact .refl s
  · rename_i taken
    split
    · exact heldStill_released (fun held => taken (.inl held)) (leaseSide_matchAddress _ s).resetHeld
    · exact .refl s

theorem heldStill_onExpiry {st : EngineState} {d : Managed} {effect : State → State} {s : State}
    (kept : (s.engine d).state = st → (effect s).resetHeld = s.resetHeld) : heldStill s (onExpiry st d effect s) := by
  unfold onExpiry
  split
  · rename_i due
    obtain ⟨released, expiry⟩ := due
    simp only [State.expiryDue, Bool.and_eq_true, beq_iff_eq] at expiry
    exact heldStill_released (by simp [released]) (kept expiry.1)
  · exact .refl s

/-- R169: the release alone ends a held reset, a part reset alone begins one, and no other command is taken in between but
for the levels at the input pins. -/
theorem heldStill_exec {c : Instr} {s t : State} (h : exec c s = .next t) (other : c ≠ .partReset) : heldStill s t := by
  cases c
  case partReset => exact absurd rfl other
  all_goals rw [← next_injective h]
  case status p seq body | queryDomain p seq body | queryLease p seq body | listLeases p seq body
      | acquire p seq body | renew p seq body | modify p seq body | release p seq body | takeNotice p seq body
      | detach p seq body | defineDomain p seq body | defineWake p seq body | setWindow p seq body
      | clearWindow p seq body | setWakeEnable p seq body | queryWake p seq body | start p seq body
      | restart p seq body | revoke p seq body | evict p seq body | clearFault p seq body =>
    exact heldStill_request _ p seq body s
  case unknownRequest p seq code body | retransmission p seq code body => exact heldStill_byCode code p seq body s
  case badFrame p bits | idleExchange p bits => exact heldStill_exchangeEnd p bits s
  case tapWord bits => exact heldStill_takeTapWord bits s
  case lineEvent k b => exact heldStill_input ⟨_, _, _, rfl⟩ (resetHeld_takeEdge k b _)
  case pgoodAsserted d =>
    exact heldStill_input ⟨_, _, _, rfl⟩ (resetHeld_guarded fun h => (moves_seePgood h.1).resetHeld_event _ _)
  case pgoodDeasserted d =>
    exact heldStill_input ⟨_, _, _, rfl⟩ (resetHeld_guarded fun _ => resetHeld_takeFault d _ _)
  case ckokAsserted d =>
    exact heldStill_input ⟨_, _, _, rfl⟩
      (resetHeld_guarded fun h => (moves_arrive_of_reaches (.clock h.1 h.2)).resetHeld_event _ _)
  case ckokDeasserted d =>
    exact heldStill_input ⟨_, _, _, rfl⟩ (resetHeld_guarded fun _ => resetHeld_takeFault d _ _)
  case tick => exact heldStill_unlessHeld ((resetHeld_lowerTimers _).trans (leaseSide_tickLeases s).resetHeld)
  case leaseExpiry i =>
    exact heldStill_unlessHeld ((leaseSide_settleMarks s).trans (leaseSide_takeExpiry i _)).resetHeld
  case railUpExpiry d | clockUpExpiry d => exact heldStill_onExpiry fun _ => resetHeld_takeFault d _ s
  case settleExpiry d =>
    exact heldStill_onExpiry fun at_ => (moves_endSettle (by rw [at_]; rfl)).resetHeld_event _ s
  case boostUpExpiry d =>
    exact heldStill_onExpiry fun at_ => (moves_arrive_of_reaches (.boost at_)).resetHeld_event _ s
  case boostDownExpiry d =>
    exact heldStill_onExpiry fun at_ => (moves_arrive_of_reaches (.run at_)).resetHeld_event _ s
  case drainEnd d => exact heldStill_onExpiry resetHeld_endDrain
  case faultDrainExpiry d => exact heldStill_onExpiry fun at_ => (Move.complete at_).moves.resetHeld_event _ s
  case stepBegin d => exact heldStill_unlessHeld ((moves_takeStep d s).resetHeld_event _ s)
  case rampGrant => exact heldStill_unlessHeld ((moves_grantChain _ s).resetHeld_event _ s)
  case levelReachedReport d => exact heldStill_unlessHeld (resetHeld_takeReport d s)
  case partResetRelease cs tfrm =>
    split
    · exact nofun
    · exact .refl s
  case chipSelectDeasserted p => exact heldStill_unlessHeld rfl
  case tfrmDeasserted => exact heldStill_unlessHeld rfl

/-- R169: the levels at the input pins and the queue of commands are no reset values. -/
theorem heldResetLaw_of_inputs {s t : State} {rest : List Instr} (h : heldResetLaw s)
    (still : heldStill { s with pending := rest } t) : heldResetLaw t := by
  intro held
  obtain ⟨pgood, ckok, lines, rfl⟩ := still held
  exact congrArg (fun u : State => { u with pgood := pgood, ckok := ckok, lines := lines, pending := rest }) (h held)

/-- R169: while a reset is held, every block holds its reset values through every step. -/
theorem heldResetLaw_step {s t : State} (h : heldResetLaw s) (taken : step s = .next t) : heldResetLaw t := by
  unfold step at taken
  split at taken
  · rw [← next_injective taken]
    exact h
  · rename_i c rest _
    by_cases reset : c = .partReset
    · subst reset
      rw [← next_injective taken]
      exact heldResetLaw_resetPart _
    · exact heldResetLaw_of_inputs h (heldStill_exec taken reset)

/-- Settles O50: the reset is `resetPart_eq`, its release `releaseReset_eq`, and a step from a held reset is shut out but for
the input levels (`heldStill_exec`), so the reset values stay (`heldResetLaw_step`). -/
theorem resetAndItsRelease : Obligations.ResetAndItsRelease := by
  refine ⟨fun s chipSelects tfrm p => ⟨⟨resetPart s, rfl, resetPart_eq s⟩, fun held => ?_, fun released => ?_⟩,
    fun s t => heldResetLaw_step⟩
  · rw [← releaseReset_eq]
    exact congrArg Host.Outcome.next (if_pos held)
  · have notHeld : ¬ s.resetHeld = true := by simp [released]
    exact ⟨congrArg Host.Outcome.next (if_neg notHeld), congrArg Host.Outcome.next (if_neg notHeld),
      congrArg Host.Outcome.next (if_neg notHeld)⟩

end Sys2Proof.Machine
end

section
/-! What the whole bytes of an exchange are: nothing, a whole request frame, or one of the four bad frames (R189 to R191). -/

namespace Sys2Proof.Machine

/-! ### The bytes after the marker -/

/-- R190, R191: the byte that follows a body of the declared length is its check byte. -/
theorem classifyFrame_declared (seq code check : Byte) {body : List Byte} (after : List Byte) (fits : body.length ≤ 60) :
    classifyFrame (seq :: code :: BitVec.ofNat 8 body.length :: (body ++ check :: after)) =
      if crc8 (seq :: code :: BitVec.ofNat 8 body.length :: body) = check then .good seq code body else .bad seq := by
  have declared : (BitVec.ofNat 8 body.length).toNat = body.length := by
    rw [BitVec.toNat_ofNat]
    omega
  have within : ¬ Config.maxRequestBody < body.length := Nat.not_lt.2 fits
  have whole : ¬ (body ++ check :: after).length < body.length + 1 := by simp
  simp only [classifyFrame, declared, if_neg within, if_neg whole, List.take_left]
  simp

/-- R190: a frame is found good only when its declared length, body and check byte are all there. -/
theorem declared_of_classifyFrame {bytes : List Byte} {seq code : Byte} {body : List Byte}
    (good : classifyFrame bytes = .good seq code body) :
    body.length ≤ 60 ∧ ∃ after, bytes = seq :: code :: BitVec.ofNat 8 body.length ::
      (body ++ crc8 (seq :: code :: BitVec.ofNat 8 body.length :: body) :: after) := by
  unfold classifyFrame at good
  split at good
  case h_2 => cases good
  case h_1 seq code len rest =>
    split_ifs at good with tooLong short checks
    cases good
    have here : len.toNat < rest.length := by omega
    have length : (rest.take len.toNat).length = len.toNat := List.length_take_of_le here.le
    have declared : BitVec.ofNat 8 len.toNat = len := by simp
    have split : rest = rest.take len.toNat ++ rest[len.toNat] :: rest.drop (len.toNat + 1) := by simp
    rw [List.getD_eq_getElem _ _ here] at checks
    refine ⟨length.trans_le (Nat.not_lt.1 tooLong), rest.drop (len.toNat + 1), ?_⟩
    rw [length, declared, checks, ← split]

theorem classifyFrame_ne_idle (bytes : List Byte) : classifyFrame bytes ≠ .idle := by
  unfold classifyFrame
  repeat' split
  all_goals nofun

/-- R192: the echo of a bad frame is the byte after the marker. -/
theorem echo_of_classifyFrame {bytes : List Byte} {echo : Byte} (bad : classifyFrame bytes = .bad echo) :
    echo = bytes.headD 0 := by
  unfold classifyFrame at bad
  repeat' split at bad
  all_goals cases bad
  all_goals rfl

/-! ### The first whole byte decides -/

/-- R189: the marker. -/
theorem classifyExchange_marker (rest : List Byte) : classifyExchange (0xA5 :: rest) = classifyFrame rest := rfl

/-- R189: no whole byte, or one of the two that an agent sends to read. -/
theorem classifyExchange_idle {bytes : List Byte}
    (h : bytes = [] ∨ bytes.head? = some 0x00 ∨ bytes.head? = some 0xFF) : classifyExchange bytes = .idle := by
  cases bytes with
  | nil => rfl
  | cons first rest =>
    have quiet : first = 0x00#8 ∨ first = 0xFF#8 := by simpa using h
    exact if_pos quiet

/-- R190: any other first byte. -/
theorem classifyExchange_other {first : Byte} (rest : List Byte) (marker : first ≠ 0xA5) (zero : first ≠ 0x00)
    (ones : first ≠ 0xFF) : classifyExchange (first :: rest) = .bad (rest.headD 0) := by
  have busy : ¬ (first = 0x00#8 ∨ first = 0xFF#8) := not_or.2 ⟨zero, ones⟩
  exact (if_neg busy).trans (if_neg marker)

/-- R189: what is judged as a frame began with the marker. -/
theorem marker_of_good {bytes : List Byte} {seq code : Byte} {body : List Byte}
    (good : classifyExchange bytes = .good seq code body) :
    ∃ rest, bytes = 0xA5#8 :: rest ∧ classifyFrame rest = .good seq code body := by
  unfold classifyExchange at good
  split at good
  · cases good
  · split_ifs at good with quiet marker
    exact ⟨_, by rw [marker], good⟩

/-- R192: the echo of a bad frame is the second whole byte, 0 if there is none. -/
theorem echo_of_bad {bytes : List Byte} {echo : Byte} (bad : classifyExchange bytes = .bad echo) :
    echo = bytes.getD 1 0 := by
  have second (first : Byte) (rest : List Byte) : (first :: rest).getD 1 0 = rest.headD 0 := by cases rest <;> rfl
  unfold classifyExchange at bad
  split at bad
  · cases bad
  · rw [second]
    split_ifs at bad with quiet marker
    · exact echo_of_classifyFrame bad
    · cases bad
      rfl

/-- R190: the request frame that an agent builds, with anything after it, is the marker and a frame whose check byte is
right. -/
theorem requestFrame_append (seq code : Byte) (body after : List Byte) :
    requestFrame seq code body ++ after = 0xA5#8 :: seq :: code :: BitVec.ofNat 8 body.length ::
      (body ++ crc8 (seq :: code :: BitVec.ofNat 8 body.length :: body) :: after) := by
  simp [requestFrame]

/-- Settles O4: a good frame is the marker (`marker_of_good`) and then every declared byte (`declared_of_classifyFrame`), and
those bytes are found good (`classifyFrame_declared`). -/
theorem goodIsExactlyAWholeFrame : Obligations.GoodIsExactlyAWholeFrame := by
  intro bytes seq code body
  constructor
  · intro good
    obtain ⟨rest, rfl, frame⟩ := marker_of_good good
    obtain ⟨fits, after, rfl⟩ := declared_of_classifyFrame frame
    exact ⟨fits, after, (requestFrame_append seq code body after).symm⟩
  · rintro ⟨fits, after, rfl⟩
    rw [requestFrame_append]
    exact (classifyFrame_declared seq code _ after fits).trans (if_pos rfl)

end Sys2Proof.Machine
end

section
/-! The end of an exchange at a port: idle, bad, or a frame in the row of the table that names it (R188, R189, R192, R193,
R196). -/

namespace Sys2Proof.Machine

section
variable {s : State} {p : Agent} {bits : List Bool}

/-! ### The end of an exchange, class by class -/

theorem exchangeEnd_idle (idle : classifyExchange (wholeBytes bits) = .idle) : exchangeEnd p bits s = s := by
  simp only [exchangeEnd, idle]

theorem exchangeEnd_bad {echo : Byte} (takes : s.takesExchange p = true)
    (bad : classifyExchange (wholeBytes bits) = .bad echo) : exchangeEnd p bits s = holdBadFrame p echo s := by
  simp only [exchangeEnd, bad, takes, if_true]

theorem exchangeEnd_good {seq code : Byte} {body : List Byte}
    (good : classifyExchange (wholeBytes bits) = .good seq code body) :
    exchangeEnd p bits s = frameEnd (requestByCode code) p seq body s := by
  simp only [exchangeEnd, good]

/-- R196: a port that takes no exchange is left as it is, whatever was clocked in. -/
theorem exchangeEnd_waiting (waits : s.takesExchange p = false) (bits : List Bool) : exchangeEnd p bits s = s := by
  unfold exchangeEnd
  split
  · rfl
  · simp [waits]
  · exact frameEnd_waiting _ _ _ waits

/-! ### The rows -/

/-- R139: by its code, a request's frame is checked and carried out as that request. -/
theorem requestByCode_of_ofCode {code : Byte} {r : Request} (named : Request.ofCode code = some r) :
    requestByCode code = checked r r.own := by
  funext p body s
  simp only [requestByCode, named]

/-- R188, R189, R193: the row that the bits are ends as the exchange does. -/
theorem exec_exchangeCommand (s : State) (p : Agent) (bits : List Bool) :
    exec (exchangeCommand s p bits) s = .next (exchangeEnd p bits s) := by
  unfold exchangeCommand
  split
  · rfl
  · rfl
  · rename_i seq code body good
    rw [exchangeEnd_good good]
    split
    · rfl
    · split
      · rename_i r named
        rw [exec_command, requestByCode_of_ofCode named]
      · rfl

end

/-- Settles O9: `exec_exchangeCommand`, by the class of the bits and the request that the code names. -/
theorem exchangeBitsHaveTheirRowsMeaning : Obligations.ExchangeBitsHaveTheirRowsMeaning := exec_exchangeCommand

/-- Settles O5: the four bad frames by the branch of R190 that finds each, and the BAD_FRAME reply by `exchangeEnd_bad`. -/
theorem badFramesAreAnsweredBadFrame : Obligations.BadFramesAreAnsweredBadFrame := by
  refine ⟨fun _ rest marker zero ones => classifyExchange_other rest marker zero ones, fun rest short => ?_,
    fun seq code len rest tooLong => if_pos tooLong, fun _ _ _ _ => classifyExchange_short,
    fun seq code check body after fits wrong => ?_, fun s p bits echo takes bad => ⟨echo_of_bad bad, ?_⟩⟩
  · match rest, short with
    | [], _ => rfl
    | [_], _ => rfl
    | [_, _], _ => rfl
  · exact (classifyFrame_declared seq code check after fits).trans (if_neg wrong.symm)
  · exact congrArg Host.Outcome.next (exchangeEnd_bad takes bad)

/-- Settles O6: `classifyExchange_idle`, `classifyExchange_marker` and `classifyExchange_other` are the three classes, and
an idle exchange ends with nothing done (`exchangeEnd_idle`). -/
theorem idleExchangeChangesNothing : Obligations.IdleExchangeChangesNothing := by
  refine ⟨fun s p bits quiet => ?_, fun rest => ⟨classifyExchange_marker rest, classifyFrame_ne_idle rest⟩,
    fun _ rest marker zero ones => classifyExchange_other rest marker zero ones⟩
  have idle := classifyExchange_idle quiet
  exact ⟨idle, congrArg Host.Outcome.next (exchangeEnd_idle idle)⟩

/-- Settles O8: at a waiting port a frame ends with nothing done (`frameEnd_waiting`), and so does every other exchange
(`exchangeEnd_waiting`). -/
theorem waitingPortTakesNoExchange : Obligations.WaitingPortTakesNoExchange := by
  intro s p seq code body bits waits
  have frame (own : Agent → List Byte → State → State × Reply) :
      Host.Outcome.next (φ := Fault) (ρ := Refusal) (frameEnd own p seq body s) = .next s :=
    congrArg Host.Outcome.next (frameEnd_waiting own seq body waits)
  have exchange : Host.Outcome.next (φ := Fault) (ρ := Refusal) (exchangeEnd p bits s) = .next s :=
    congrArg Host.Outcome.next (exchangeEnd_waiting waits bits)
  exact ⟨fun r => (exec_command r p seq body s).trans (frame _), frame _, frame _, exchange, exchange⟩

end Sys2Proof.Machine
end

section
/-! The bytes and bits that cross a port: bits read as bytes, and the held reply shifted out (R188, R194, R196, R202). -/

namespace Sys2Proof.Machine

/-! ### Bits and bytes (R188) -/

theorem getElem?_byteBits (b : Byte) {i : Nat} (h : i < 8) : (byteBits b)[i]? = some (b.getMsbD i) := by
  rw [byteBits, List.getElem?_ofFn, dif_pos h]

/-- R188: whole bytes are read back, and fewer than eight bits behind them are discarded. -/
theorem wholeBytes_flatMap_append (bytes : List Byte) {tail : List Bool} (short : tail.length < 8) :
    wholeBytes (bytes.flatMap byteBits ++ tail) = bytes := by
  induction bytes with
  | nil => exact wholeBytes_short short
  | cons b bytes ih => rw [List.flatMap_cons, List.append_assoc, wholeBytes_byteBits_append, ih]

theorem length_flatMap_byteBits (bytes : List Byte) : (bytes.flatMap byteBits).length = 8 * bytes.length := by
  simp [List.length_flatMap, Nat.mul_comm]

/-- R188: bit i of a row of bytes stands in byte i / 8, at place i % 8 from its highest bit. -/
theorem getElem?_flatMap_byteBits (bytes : List Byte) (i : Nat) :
    (bytes.flatMap byteBits)[i]? = bytes[i / 8]?.map fun b => b.getMsbD (i % 8) := by
  induction bytes generalizing i with
  | nil => rfl
  | cons b bytes ih =>
    rw [List.flatMap_cons, List.getElem?_append, length_byteBits]
    split
    · rename_i first
      rw [getElem?_byteBits b first, Nat.div_eq_of_lt first, Nat.mod_eq_of_lt first]
      rfl
    · rename_i later
      have byte : i / 8 = (i - 8) / 8 + 1 := by omega
      have place : i % 8 = (i - 8) % 8 := by omega
      rw [ih, byte, place, List.getElem?_cons_succ]

/-! ### What a port shifts out (R188, R194) -/

section
variable {s : State} {p : Agent}

/-- R188: the byte that a port shifts out in place i of an exchange: the held reply's, and 0xFF beyond it. -/
def State.shiftedByte (s : State) (p : Agent) (i : Nat) : Byte := (replyFrame (s.port p).held).getD i 0xFF

theorem length_shiftOut (takes : s.takesExchange p = true) (n : Nat) : (s.shiftOut p n).length = n := by
  simp [State.shiftOut, takes]

theorem getElem?_shiftOut (takes : s.takesExchange p = true) {i n : Nat} (h : i < n) :
    (s.shiftOut p n)[i]? = some (s.shiftedByte p i) := by
  rw [State.shiftOut, if_pos takes, List.getElem?_take_of_lt h, List.getElem?_append, State.shiftedByte,
    List.getD_eq_getElem?_getD]
  split
  · rename_i within
    rw [List.getElem?_eq_getElem within, Option.getD_some]
  · rename_i beyond
    have padded : i - (replyFrame (s.port p).held).length < n := by omega
    rw [List.getElem?_replicate_of_lt padded, List.getElem?_eq_none (Nat.not_lt.1 beyond), Option.getD_none]
    rfl

theorem length_shiftOutBits (takes : s.takesExchange p = true) (n : Nat) : (s.shiftOutBits p n).length = n := by
  rw [State.shiftOutBits, List.length_take, length_flatMap_byteBits, length_shiftOut takes]
  omega

/-- R188: a bit shifted out is its byte's, the most significant first. -/
theorem getElem?_shiftOutBits (takes : s.takesExchange p = true) {i n : Nat} (h : i < n) :
    (s.shiftOutBits p n)[i]? = some ((s.shiftedByte p (i / 8)).getMsbD (i % 8)) := by
  have byte : i / 8 < n / 8 + 1 := Nat.lt_succ_of_le (Nat.div_le_div_right h.le)
  rw [State.shiftOutBits, List.getElem?_take_of_lt h, getElem?_flatMap_byteBits, getElem?_shiftOut takes byte]
  rfl

/-- R188: in clock cycle n the pin of a selected port is at the level of bit n. -/
theorem sdoPin_selected (takes : s.takesExchange p = true) (n : Nat) (free : PinLevel) :
    s.sdoPin p true n free = .driven ((s.shiftedByte p (n / 8)).getMsbD (n % 8)) := by
  have driven : ¬ (s.resetHeld = true ∨ true = false) := by simp [released_of_takesExchange takes]
  rw [State.sdoPin, if_neg driven, getElem?_shiftOutBits takes n.lt_succ_self]

/-- R196: a port that takes no exchange shifts out nothing (log 23). -/
theorem shiftOut_waiting (waits : s.takesExchange p = false) (n : Nat) :
    s.shiftOut p n = [] ∧ s.shiftOutBits p n = [] := by
  have none (m : Nat) : s.shiftOut p m = [] := by simp [State.shiftOut, waits]
  refine ⟨none n, ?_⟩
  rw [State.shiftOutBits, none, List.flatMap_nil, List.take_nil]

/-- R202: SDO is high impedance in a reset and while its chip select is deasserted. -/
theorem sdoPin_highImpedance {selected : Bool} (h : s.resetHeld = true ∨ selected = false) (n : Nat) (free : PinLevel) :
    s.sdoPin p selected n free = .highImpedance := if_pos h

end

/-- Settles O10: bits and bytes by `getElem?_byteBits` and `wholeBytes_flatMap_append`, what a port shifts out by
`getElem?_shiftOut` and `getElem?_shiftOutBits`, its pin by `sdoPin_selected` and `sdoPin_highImpedance`. -/
theorem bytesAndRepliesAreShiftedAsTheRuleSays : Obligations.BytesAndRepliesAreShiftedAsTheRuleSays := by
  refine ⟨fun b => ⟨length_byteBits b, fun _ => getElem?_byteBits b⟩, fun bytes _ => wholeBytes_flatMap_append bytes,
    fun _ => rfl, fun s p n takes => ⟨⟨length_shiftOut takes n, fun _ => getElem?_shiftOut takes⟩,
      ⟨length_shiftOutBits takes n, fun _ => getElem?_shiftOutBits takes⟩, sdoPin_selected takes n⟩,
    fun s p n free => ⟨fun waits => shiftOut_waiting waits n, sdoPin_highImpedance (.inr rfl) n free,
      fun held _ => sdoPin_highImpedance (.inl held) n free⟩, by decide⟩

end Sys2Proof.Machine
end

section
/-! A frame under another sequence than the port's last is executed: its owner touches no port, and answers no status that
the port gives of itself (R138, R139, R192 to R194). -/

namespace Sys2Proof.Machine

/-! ### What an owner touches -/

/-- From s to t the ports, the held reset, the tap receiver, the input levels and the waiting commands stay. -/
def ownerSide (s t : State) : Prop :=
  ∃ partState records engines reports slots lists freeUnits rampQueue windows wakes queues pinLog, t = { s with
    partState := partState, records := records, engines := engines, reports := reports, slots := slots, lists := lists,
    freeUnits := freeUnits, rampQueue := rampQueue, windows := windows, wakes := wakes, queues := queues, pinLog := pinLog }

theorem ownerSide.refl (s : State) : ownerSide s s := ⟨_, _, _, _, _, _, _, _, _, _, _, _, rfl⟩

theorem ownerSide.of_eq {s t : State} (h : t = s) : ownerSide s t := h ▸ .refl s

theorem ownerSide.trans {s t u : State} (h : ownerSide s t) (k : ownerSide t u) : ownerSide s u := by
  obtain ⟨_, _, _, _, _, _, _, _, _, _, _, _, rfl⟩ := h
  obtain ⟨_, _, _, _, _, _, _, _, _, _, _, _, rfl⟩ := k
  exact ⟨_, _, _, _, _, _, _, _, _, _, _, _, rfl⟩

theorem ownerSide.port {s t : State} (h : ownerSide s t) : t.port = s.port := by
  obtain ⟨_, _, _, _, _, _, _, _, _, _, _, _, rfl⟩ := h
  rfl

theorem leaseSide.ownerSide {s t : State} (h : leaseSide s t) : ownerSide s t := by
  obtain ⟨⟨_, _, _, _, _, rfl⟩, _⟩ := h
  exact ⟨_, _, _, _, _, _, _, _, _, _, _, _, rfl⟩

theorem moveSide.ownerSide {s t : State} (h : moveSide s t) : ownerSide s t := by
  obtain ⟨_, _, _, _, _, rfl⟩ := h
  exact ⟨_, _, _, _, _, _, _, _, _, _, _, _, rfl⟩

theorem ownerSide_refreshDetectors (s : State) : ownerSide s (refreshDetectors s) := by
  rw [refreshDetectors_eq]
  exact ⟨_, _, _, _, _, _, _, _, _, _, _, _, rfl⟩

theorem ownerSide_closeEvent (order : List Managed) (old new : State) : ownerSide new (closeEvent order old new) := by
  rw [closeEvent_eq]
  exact ⟨_, _, _, _, _, _, _, _, _, _, _, _, rfl⟩

theorem ownerSide_doDefineDomain (p : Agent) (body : List Byte) (s : State) : ownerSide s (doDefineDomain p body s).1 := by
  unfold doDefineDomain
  repeat' split
  all_goals exact ⟨_, _, _, _, _, _, _, _, _, _, _, _, rfl⟩

theorem ownerSide_doDefineWake (p : Agent) (body : List Byte) (s : State) : ownerSide s (doDefineWake p body s).1 := by
  unfold doDefineWake
  split
  all_goals exact ⟨_, _, _, _, _, _, _, _, _, _, _, _, rfl⟩

theorem ownerSide_doSetWakeEnable (p : Agent) (body : List Byte) (s : State) :
    ownerSide s (doSetWakeEnable p body s).1 := by
  have written (k : LineId) (w : WakeLine) : ownerSide s (s.setWake k w) := ⟨_, _, _, _, _, _, _, _, _, _, _, _, rfl⟩
  unfold doSetWakeEnable accept
  dsimp only
  repeat' split
  case h_2.isFalse.isFalse => exact (written _ _).trans (ownerSide_refreshDetectors _)
  all_goals exact .refl s

theorem ownerSide_doStart (p : Agent) (body : List Byte) (s : State) : ownerSide s (doStart p body s).1 := by
  have running : ownerSide s { s with partState := .run } := ⟨_, _, _, _, _, _, _, _, _, _, _, _, rfl⟩
  unfold doStart
  repeat' split
  case h_2 => exact running.trans (ownerSide_refreshDetectors _)
  all_goals exact .refl s

theorem ownerSide_restartPart (s : State) : ownerSide s (restartPart s) := by
  have emptied (t : State) : ownerSide t (endStopping { emptyQueues t with partState := .stopping }) := by
    rw [endStopping_eq]
    exact ⟨_, _, _, _, _, _, _, _, _, _, _, _, rfl⟩
  exact ((leaseSide_freeSlots s.usedSlots s).ownerSide.trans (emptied _)).trans (ownerSide_refreshDetectors _)

/-- An event of the engines, from its moves to its end. -/
theorem Moves.ownerSide_event {s t : State} (h : Moves s t) (order : List Managed) (old : State) :
    ownerSide s (closeEvent order old t) := h.side.ownerSide.trans (ownerSide_closeEvent order old t)

theorem ownerSide_clearFaultOf (d : Managed) (s : State) : ownerSide s (clearFaultOf d s) := by
  have cleared : ownerSide s (arrived d .off (s.setEngine d { s.engine d with drainComplete := false })) :=
    ⟨_, _, _, _, _, _, _, _, _, _, _, _, rfl⟩
  unfold clearFaultOf
  exact cleared.trans ((moves_arrive d .off _).ownerSide_event [d] s)

theorem ownerSide_doClearFault (p : Agent) (body : List Byte) (s : State) : ownerSide s (doClearFault p body s).1 := by
  unfold doClearFault
  repeat' split
  case h_2.isFalse.isFalse.isFalse => exact ownerSide_clearFaultOf _ s
  all_goals exact .refl s

/-- R138: no owner of a request touches a port or an input. -/
theorem ownerSide_own (r : Request) (p : Agent) (body : List Byte) (s : State) : ownerSide s (r.own p body s).1 := by
  cases r with
  | status => exact .refl s
  | queryDomain => exact .of_eq (doQueryDomain_state p body s)
  | queryLease => exact .of_eq (doQueryLease_state p body s)
  | listLeases => exact .of_eq (doListLeases_state p body s)
  | queryWake => exact .of_eq (doQueryWake_state p body s)
  | acquire => exact (leaseSide_doAcquire p body s).ownerSide
  | renew => exact (leaseSide_doRenew p body s).ownerSide
  | modify => exact (leaseSide_doModify p body s).ownerSide
  | release => exact (leaseSide_doRelease p body s).ownerSide
  | takeNotice => exact (leaseSide_doTakeNotice p body s).ownerSide
  | detach => exact (leaseSide_detachAgent p s).ownerSide
  | setWindow => exact (leaseSide_doSetWindow p body s).ownerSide
  | clearWindow => exact (leaseSide_doClearWindow p body s).ownerSide
  | revoke => exact (leaseSide_doRevoke p body s).ownerSide
  | evict => exact (leaseSide_doEvict p body s).ownerSide
  | defineDomain => exact ownerSide_doDefineDomain p body s
  | defineWake => exact ownerSide_doDefineWake p body s
  | setWakeEnable => exact ownerSide_doSetWakeEnable p body s
  | start => exact ownerSide_doStart p body s
  | restart => exact ownerSide_restartPart s
  | clearFault => exact ownerSide_doClearFault p body s

/-! ### What an owner answers -/

/-- R197: a status that a request is answered with, not one that the port gives of itself. -/
def Status.ofRequest (st : Status) : Prop := st ≠ .noReply ∧ st ≠ .badFrame

section
variable {s : State} {p : Agent} {body : List Byte} {st : Status}

theorem ofRequest_of_earlyRefusal {r : Request} (early : s.earlyRefusal r p body = some st) : st.ofRequest := by
  have admission : r.admission s.partState = some st → st.ofRequest := by
    cases r <;> cases s.partState <;> intro h <;> cases h <;> exact ⟨nofun, nofun⟩
  unfold State.earlyRefusal at early
  split at early
  · cases early; exact ⟨nofun, nofun⟩
  · split at early
    · rename_i refused
      exact admission (refused.trans early)
    · split at early <;> cases early
      exact ⟨nofun, nofun⟩

theorem ofRequest_of_acquireMeaning {f : AcquireFields} (h : acquireMeaning s f = .error st) : st.ofRequest := by
  unfold acquireMeaning at h
  repeat' split at h
  all_goals cases h
  all_goals exact ⟨nofun, nofun⟩

theorem ofRequest_of_acquireSlot {d : Managed} (h : acquireSlot s p d = .error st) : st.ofRequest := by
  unfold acquireSlot at h
  repeat' split at h
  all_goals cases h
  all_goals exact ⟨nofun, nofun⟩

theorem ofRequest_of_ownLease {h : Handle} (own : ownLease s p h = .error st) : st.ofRequest := by
  unfold ownLease at own
  repeat' split at own
  all_goals cases own
  all_goals exact ⟨nofun, nofun⟩

theorem ofRequest_of_clearFaultDomain (h : clearFaultDomain s body = .error st) : st.ofRequest := by
  unfold clearFaultDomain at h
  repeat' split at h
  all_goals cases h
  all_goals exact ⟨nofun, nofun⟩

theorem ofRequest_doAcquire (p : Agent) (body : List Byte) (s : State) : (doAcquire p body s).2.status.ofRequest := by
  unfold doAcquire
  split
  · exact ⟨nofun, nofun⟩
  · split
    · rename_i meaning
      exact ofRequest_of_acquireMeaning meaning
    · split
      · rename_i slot
        exact ofRequest_of_acquireSlot slot
      · exact ⟨nofun, nofun⟩

theorem ofRequest_doRenew (p : Agent) (body : List Byte) (s : State) : (doRenew p body s).2.status.ofRequest := by
  unfold doRenew
  split
  · exact ⟨nofun, nofun⟩
  · split
    · rename_i own
      exact ofRequest_of_ownLease own
    · repeat' split
      all_goals exact ⟨nofun, nofun⟩

theorem ofRequest_doModify (p : Agent) (body : List Byte) (s : State) : (doModify p body s).2.status.ofRequest := by
  unfold doModify
  split
  · split
    · exact ⟨nofun, nofun⟩
    · split
      · rename_i own
        exact ofRequest_of_ownLease own
      · split <;> exact ⟨nofun, nofun⟩
  · exact ⟨nofun, nofun⟩

theorem ofRequest_doRelease (p : Agent) (body : List Byte) (s : State) : (doRelease p body s).2.status.ofRequest := by
  unfold doRelease
  split
  · exact ⟨nofun, nofun⟩
  · split
    · rename_i own
      exact ofRequest_of_ownLease own
    · exact ⟨nofun, nofun⟩

theorem ofRequest_doClearFault (p : Agent) (body : List Byte) (s : State) :
    (doClearFault p body s).2.status.ofRequest := by
  unfold doClearFault
  repeat' split
  case h_1 domain => exact ofRequest_of_clearFaultDomain domain
  all_goals exact ⟨nofun, nofun⟩

/-- R140: an owner answers OK, a refusal of its own, or a refusal of a check that requests share. -/
theorem ofRequest_own (r : Request) (p : Agent) (body : List Byte) (s : State) : (r.own p body s).2.status.ofRequest := by
  cases r
  case acquire => exact ofRequest_doAcquire p body s
  case renew => exact ofRequest_doRenew p body s
  case modify => exact ofRequest_doModify p body s
  case release => exact ofRequest_doRelease p body s
  case clearFault => exact ofRequest_doClearFault p body s
  all_goals
    simp only [Request.own, doStatus, doQueryDomain, doQueryLease, doListLeases, doTakeNotice, doDetach, doDefineDomain,
      doDefineWake, doSetWindow, doClearWindow, doSetWakeEnable, doQueryWake, doStart, doRestart, doRevoke, doEvict]
    repeat' split
  all_goals exact ⟨nofun, nofun⟩

end

/-! ### An executed frame -/

theorem owner_checked (r : Request) (p : Agent) (body : List Byte) (s : State) :
    ownerSide s (checked r r.own p body s).1 ∧ (checked r r.own p body s).2.status.ofRequest := by
  unfold checked
  split
  · rename_i early
    exact ⟨.refl s, ofRequest_of_earlyRefusal early⟩
  · exact ⟨ownerSide_own r p body s, ofRequest_own r p body s⟩

/-- R141: a frame read by its code is a request, or it is refused UNKNOWN_REQUEST. -/
theorem owner_requestByCode (code : Byte) (p : Agent) (body : List Byte) (s : State) :
    ownerSide s (requestByCode code p body s).1 ∧ (requestByCode code p body s).2.status.ofRequest := by
  unfold requestByCode
  split
  · exact owner_checked _ p body s
  · exact ⟨.refl s, nofun, nofun⟩

theorem repeats_iff (s : State) (p : Agent) (seq : Byte) :
    s.repeats p seq = true ↔ seq ≠ 0 ∧ (s.port p).lastSeq = some seq := by
  simp [State.repeats]

theorem lastSeq_answer (p : Agent) (seq : Byte) (st : Status) (body : List Byte) (s : State) :
    ((answer p seq st body s).port p).lastSeq = if seq = 0 then (s.port p).lastSeq else some seq := by
  simp [answer, State.port]

/-- R193: what a frame leaves at a port that takes it: nothing new under the last sequence, and otherwise an answer to the
request and its sequence. -/
theorem frameEnd_bySequence {own : Agent → List Byte → State → State × Reply} {s : State} {p : Agent} {seq : Byte}
    {body : List Byte} (takes : s.takesExchange p = true) (fits : body.length ≤ 60)
    (owner : ownerSide s (own p body s).1 ∧ (own p body s).2.status.ofRequest) :
    (seq ≠ 0 ∧ (s.port p).lastSeq = some seq → frameEnd own p seq body s = s) ∧
    (seq = 0 ∨ (s.port p).lastSeq ≠ some seq →
      ((frameEnd own p seq body s).port p).held.echo = seq ∧
      ((frameEnd own p seq body s).port p).held.status.ofRequest ∧
      ((frameEnd own p seq body s).port p).lastSeq = if seq = 0 then (s.port p).lastSeq else some seq) := by
  refine ⟨fun last => frameEnd_repeats own takes ((repeats_iff s p seq).2 last) fits, fun other => ?_⟩
  have new : s.repeats p seq = false := by
    rw [← Bool.not_eq_true, repeats_iff]
    tauto
  obtain ⟨side, status⟩ := owner
  rw [frameEnd_executes own ((executes_iff s p seq).2 ⟨takes, new⟩) fits, held_answer, lastSeq_answer, side.port]
  exact ⟨rfl, status, rfl⟩

/-- A request's row, an unknown code's and a retransmission's each end as a frame does, whose owner is a request's or the
one that the code names. -/
theorem exec_frame {c : Instr} {p : Agent} {seq code : Byte} {body : List Byte}
    (frame : c = .retransmission p seq code body ∨ c = .unknownRequest p seq code body ∨
      ∃ r : Request, c = r.command p seq body) (s : State) :
    ∃ own, exec c s = .next (frameEnd own p seq body s) ∧
      ownerSide s (own p body s).1 ∧ (own p body s).2.status.ofRequest := by
  rcases frame with rfl | rfl | ⟨r, rfl⟩
  · exact ⟨requestByCode code, rfl, owner_requestByCode code p body s⟩
  · exact ⟨requestByCode code, rfl, owner_requestByCode code p body s⟩
  · exact ⟨checked r r.own, exec_command r p seq body s, owner_checked r p body s⟩

/-- Settles O7: every such row ends as a frame does (`exec_frame`), and the sequence alone decides whether the frame is
executed (`frameEnd_bySequence`). -/
theorem sequenceDecidesWhatIsExecuted : Obligations.SequenceDecidesWhatIsExecuted := by
  intro s p seq code body c takes fits frame
  obtain ⟨own, run, owner⟩ := exec_frame frame s
  obtain ⟨repeated, executed⟩ := frameEnd_bySequence (seq := seq) takes fits owner
  rw [run]
  refine ⟨fun last => congrArg Host.Outcome.next (repeated last), fun ⟨other, _⟩ => ?_⟩
  obtain ⟨echo, ⟨noReply, badFrame⟩, last⟩ := executed other
  exact ⟨_, rfl, echo, noReply, badFrame, last⟩

end Sys2Proof.Machine
end

section
/-! What a step does with the queue of waiting commands: it takes the front one, and idles when none waits (00 §6.7,
log 3). -/

namespace Sys2Proof.Machine

theorem step_of_pending_cons {s : State} {c : Instr} {rest : List Instr} (waiting : s.pending = c :: rest) :
    step s = exec c { s with pending := rest } := by
  unfold step
  rw [waiting]

theorem step_of_pending_nil {s : State} (empty : s.pending = []) : step s = .next s := by
  unfold step
  rw [empty]

/-- Settles O1: the queue's two shapes are the two equations of `step`; writing the queue's rest over the queue leaves
nothing of the front command behind. -/
theorem stepTakesTheFrontCommand : Obligations.StepTakesTheFrontCommand :=
  ⟨fun _ _ _ => step_of_pending_cons rfl, fun _ empty => step_of_pending_nil empty⟩

end Sys2Proof.Machine
end

section
/-! The single deeds of a step, finer than its changes: what becomes of the lease in one slot, of one link and of one window
is said exactly, and no step both makes a lease and frees a slot (R21, R23, R24, R29 to R40, R102, R112). -/

namespace Sys2Proof.Machine

/-- In state s a lease may be rewritten in its slot so: its holder, domain, origin, tag, kind, window and liveness stay, it
goes on being lawful, and a level newly granted is assured. -/
structure Rewrites (s : State) (l l' : Lease) : Prop where
  holder : l'.holder = l.holder
  domain : l'.domain = l.domain
  origin : l'.origin = l.origin
  tag : l'.tag = l.tag
  code : l'.term.code = l.term.code
  window : l'.term.window? = l.term.window?
  live : l'.live = l.live
  wanted : l'.wanted = l.wanted ∨ ∀ r ∈ s.record l.domain, l'.wanted.num ≤ r.maxLevel.num
  lawful : templateLaw s → l.lawful → l'.lawful
  granted : grantedNum l'.granted ≤ grantedNum l.granted ∨
    (listLaw s → grantedNum l'.granted ≤ (s.assuredOf l.domain).num)

/-- In state s the lease may be made in the slot (R24, R27, R28, R117, R154). -/
structure Makes (s : State) (i : SlotId) (l : Lease) : Prop where
  running : s.partState = .run
  free : s.lease i = none
  live : l.live = true
  sound : s.faultAtOrAbove l.domain = false
  admits : s.admits l
  room : (s.slotsOf l.holder).length < Config.quota
  window : s.windowDefined l.term = true
  lawful : templateLaw s → l.lawful
  granted : grantedNum l.granted ≤ (s.assuredOf l.domain).num

/-- One deed; in a step that makes a lease (true) no slot is freed, and in one that frees a slot (false) none is made. -/
inductive Deed : Bool → State → State → Prop
  | outside {b : Bool} {s t : State} (h : outside s t) : Deed b s t
  | queues {b : Bool} {s : State} (queues : Vector (List Notice) 4) : Deed b s { s with queues := queues }
  /-- R174 -/
  | line {b : Bool} {s : State} {k : LineId} {w : WakeLine} (setup : s.partState = .setup)
      (inRange : ∀ t ∈ w.template, t.inRange) (unlinked : w.link = none) : Deed b s (s.setWake k w)
  /-- R177 -/
  | enable {b : Bool} {s : State} {k : LineId} {enabled : Bool}
      (valid : enabled = true → lineValid s (s.wake k) = true) :
      Deed b s (s.setWake k { s.wake k with enabled := enabled, link := none })
  /-- R113, R114 -/
  | baselines {b : Bool} {s : State} {wakes : Vector WakeLine 8}
      (same : ∀ k : LineId, ∃ baseline, wakes[k] = { s.wake k with baseline := baseline }) :
      Deed b s { s with wakes := wakes }
  /-- R107, R175, R176 -/
  | window {b : Bool} {s : State} {w : WindowId} {range : Option WindowRange} (inRange : ∀ x ∈ range, x.inRange)
      (unused : range = none → (s.window w).users = 0) : Deed b s (s.setWindow w { s.window w with range := range })
  /-- R29 to R35 -/
  | rewrite {b : Bool} {s : State} {i : SlotId} {l l' : Lease} (h : s.lease i = some l) (rewrites : Rewrites s l l') :
      Deed b s (s.setLease i l')
  /-- R45 -/
  | settle {b : Bool} {s : State} : Deed b s (settleMarks s)
  /-- R36 -/
  | ended {b : Bool} {s : State} (i : SlotId) (cause : EndCause) : Deed b s (endLease i cause s)
  /-- R39 -/
  | freed {s : State} (i : SlotId) : Deed false s (freeSlot i s)
  /-- R27, R28 -/
  | made {s : State} {i : SlotId} {l : Lease} (makes : Makes s i l) : Deed true s (placeLease i l s)
  /-- R112, R117 -/
  | link {b : Bool} {s : State} {k : LineId} {h : Handle} (names : s.linkNames k h = true) :
      Deed b s (s.setWake k { s.wake k with link := some h })
  /-- R180 -/
  | start {b : Bool} {s : State} (setup : s.partState = .setup) (domains : ∀ d, domainPasses s d = true)
      (lines : ∀ k, linePasses s k = true) : Deed b s { s with partState := .run }
  /-- R181 -/
  | stop {b : Bool} {s : State} (running : s.partState = .run) (free : ∀ i, s.lease i = none) :
      Deed b s { s with partState := .stopping }
  /-- R182 -/
  | stopped {b : Bool} {s : State} (stopping : s.partState = .stopping) (down : s.allDown = true) :
      Deed b s { s with partState := .setup }
  | move {b : Bool} {s t : State} {d : Managed} (h : Move d s t) : Deed b s t
  /-- R83 -/
  | fault {b : Bool} {s : State} {d : Managed} {cause : FaultCause} (fails : (s.engine d).state.canFail = true) :
      Deed b s (faultEvent d cause s)
  /-- R51 -/
  | timers {b : Bool} {s : State} : Deed b s (lowerTimers s)

/-- A chain of deeds. -/
abbrev Deeds (b : Bool) (s t : State) : Prop := Relation.ReflTransGen (Deed b) s t

/-- What every deed keeps, every chain of deeds keeps. -/
theorem Deeds.keeps {P : State → Prop} {b : Bool} (each : ∀ {s t}, Deed b s t → P s → P t) {s t : State}
    (h : Deeds b s t) : P s → P t := by
  induction h with
  | refl => exact id
  | tail _ last ih => exact fun hs => each last (ih hs)

/-- A fold of operations that are each a chain of deeds is one. -/
theorem Deeds.foldl {α : Type} {b : Bool} (f : State → α → State) (each : ∀ s a, Deeds b s (f s a)) (l : List α)
    (s : State) : Deeds b s (l.foldl f s) :=
  foldl_relation (Deeds b) (fun _ => .refl) (fun _ _ _ h k => h.trans k) f each l s

theorem deed_rewrites_leasesFrom {s : State} {i : SlotId} {l l' : Lease} (h : s.lease i = some l)
    (rewrites : Rewrites s l l') : LeasesFrom s (s.setLease i l') :=
  leasesFrom_setLease h rewrites.domain rewrites.live rewrites.wanted

/-- Every deed is a change, or nothing that the laws of the part read. -/
theorem Deed.outside_or_change {b : Bool} {s t : State} (h : Deed b s t) : Machine.outside s t ∨ Change s t := by
  cases h with
  | outside h => exact .inl h
  | queues => exact .inr (.leases (leasesFrom_of_slots (leaseSide_of_eq ⟨_, _, _, _, rfl⟩) rfl rfl rfl))
  | line setup inRange _ => exact .inr (.line setup inRange)
  | enable valid => exact .inr (.enable valid)
  | baselines same => exact .inr (.baselines same)
  | window inRange _ => exact .inr (.window inRange)
  | rewrite h rewrites => exact .inr (.leases (deed_rewrites_leasesFrom h rewrites))
  | settle => exact .inr (.leases (leasesFrom_settleMarks s))
  | ended i cause => exact .inr (.leases (leasesFrom_endLease i cause s))
  | freed i => exact .inr (.leases (leasesFrom_freeSlot i s))
  | made makes => exact .inr (.make makes.running makes.free makes.live makes.sound makes.admits)
  | link => exact .inr (.leases (leasesFrom_of_slots (leaseSide_setLink _ _ s) rfl rfl rfl))
  | start setup domains lines => exact .inr (.start setup domains lines)
  | stop running free => exact .inr (.stop running free)
  | stopped stopping down => exact .inr (.stopped stopping down)
  | move h => exact .inr (.move h)
  | fault fails => exact .inr (.fault fails)
  | timers => exact .inr .timers

/-- A law that every change keeps and the ports do not bear on. -/
theorem Deed.keeps {P : State → Prop} (blind : ∀ {s t}, Machine.outside s t → P s → P t)
    (each : ∀ {s t}, Change s t → P s → P t) {b : Bool} {s t : State} (h : Deed b s t) : P s → P t :=
  h.outside_or_change.elim blind each

/-! ### The rewritings of a lease -/

/-- R29: a lease whose term has taken another time in range is loaded. -/
theorem rewrites_load (s : State) {l : Lease} {term : Term} (code : term.code = l.term.code)
    (window : term.window? = l.term.window?) (inRange : templateLaw s → l.term.inRange → term.inRange) :
    Rewrites s l (Lease.reload { l with term := term }) where
  holder := rfl
  domain := rfl
  origin := rfl
  tag := rfl
  code := code
  window := window
  live := live_load _ { l with term := term }
  wanted := .inl rfl
  granted := .inl (Nat.le_refl _)
  lawful := by
    intro templates ⟨wanted, range, granted, state⟩
    have ranged := inRange templates range
    refine ⟨wanted, ranged, granted, ?_⟩
    cases held : l.state with
    | pending => simpa [Lease.reload, held] using state
    | ended cause => simp [Lease.reload]
    | held old =>
      rw [held] at state
      simp only [Lease.reload, load_held]
      refine ⟨state.1, by simp, fun c hc => ?_⟩
      obtain ⟨n, hn, rfl⟩ := Option.map_eq_some_iff.1 hc
      have left : (Countdown.reload old n).left = n := by cases old <;> rfl
      rw [left]
      exact ranged n hn

theorem rewrites_reload (s : State) (l : Lease) : Rewrites s l l.reload :=
  rewrites_load s rfl rfl fun _ h => h

/-- R31: a renewal with a time in range, or with the stored one. -/
theorem rewrites_renew (s : State) (l : Lease) {time : Option Nat}
    (inRange : templateLaw s → ∀ n ∈ time, 1 ≤ n ∧ n ≤ 65535) : Rewrites s l (l.renew time) := by
  refine rewrites_load s ?_ ?_ fun templates range => ?_
  all_goals
    cases term : l.term <;> cases time <;>
      simp_all [Term.renewed, Term.code, Term.window?, Term.time, Term.inRange]

theorem num_lower_le_left (a b : Level) : (a.lower b).num ≤ a.num := by
  unfold Level.lower
  split
  · exact Nat.le_refl _
  · omega

theorem num_lower_le_right (a b : Level) : (a.lower b).num ≤ b.num := by
  unfold Level.lower
  split
  · assumption
  · exact Nat.le_refl _

/-- R27, R32, R35: the countdown that a first grant starts. -/
theorem start_inRange {t : Term} (range : t.inRange) : ∀ c ∈ t.time.map Countdown.start, 1 ≤ c.left ∧ c.left ≤ 65535 := by
  intro c hc
  obtain ⟨n, hn, rfl⟩ := Option.map_eq_some_iff.1 hc
  exact range n hn

/-- R32, R34, R35: a PENDING lease that wants a level is granted it as assured. -/
theorem rewrites_grant {s : State} {l : Lease} (pending : l.state = .pending) {level : Level} (up : l.lawful → level ≠ .off)
    (within : level = l.wanted ∨ ∀ r ∈ s.record l.domain, level.num ≤ r.maxLevel.num)
    (met : listLaw s → level.num ≤ (s.assuredOf l.domain).num) :
    Rewrites s l (Lease.grant { l with wanted := level }) where
  holder := rfl
  domain := rfl
  origin := rfl
  tag := rfl
  code := rfl
  window := rfl
  live := by simp [Lease.live, Lease.grant, pending]
  wanted := within
  granted := .inr met
  lawful := fun _ lawful => by
    have ⟨_, range, _⟩ := lawful
    exact ⟨up lawful, range, Nat.le_refl _, rfl, by simp [Lease.grant], start_inRange range⟩

/-- R32, R34: a HELD lease takes another wanted or granted level. -/
theorem rewrites_level {s : State} {l : Lease} {c : Option Countdown} (held : l.state = .held c) {level granted : Level}
    (up : l.lawful → level ≠ .off) (within : level = l.wanted ∨ ∀ r ∈ s.record l.domain, level.num ≤ r.maxLevel.num)
    (below : granted.num ≤ level.num) (met : listLaw s → granted.num ≤ (s.assuredOf l.domain).num) :
    Rewrites s l { l with wanted := level, granted := some granted } where
  holder := rfl
  domain := rfl
  origin := rfl
  tag := rfl
  code := rfl
  window := rfl
  live := rfl
  wanted := within
  granted := .inr met
  lawful := by
    intro _ lawful
    have above := up lawful
    obtain ⟨_, range, _, state⟩ := lawful
    refine ⟨above, range, below, ?_⟩
    rw [held] at state
    simp only [held]
    exact ⟨rfl, state.2⟩

/-- R35: a PENDING lease that goes on waiting takes another wanted level. -/
theorem rewrites_wanted {s : State} {l : Lease} (pending : l.state = .pending) {level : Level} (up : level ≠ .off)
    (within : ∀ r ∈ s.record l.domain, level.num ≤ r.maxLevel.num) : Rewrites s l { l with wanted := level } where
  holder := rfl
  domain := rfl
  origin := rfl
  tag := rfl
  code := rfl
  window := rfl
  live := rfl
  wanted := .inr within
  granted := .inl (Nat.le_refl _)
  lawful := by
    intro _ ⟨_, range, _, state⟩
    rw [pending] at state
    refine ⟨up, range, by simp [state, grantedNum], ?_⟩
    rw [pending]
    exact state

/-- The lease goes on as it is. -/
theorem Rewrites.refl (s : State) (l : Lease) : Rewrites s l l :=
  ⟨rfl, rfl, rfl, rfl, rfl, rfl, rfl, .inl rfl, fun _ h => h, .inl (Nat.le_refl _)⟩

/-- R34, R35, R158, R159: MODIFY to a level that is not OFF and within the maximum level. -/
theorem rewrites_modify {s : State} {l : Lease} {level : Level} (up : level ≠ .off)
    (within : ∀ r ∈ s.record l.domain, level.num ≤ r.maxLevel.num) :
    Rewrites s l (l.modify level (s.assuredOf l.domain)) := by
  unfold Lease.modify Lease.relevel
  split
  · exact .refl s l
  · split
    · rename_i pending
      split
      · rename_i met
        exact rewrites_grant pending (fun _ => up) (.inr within) fun _ => met
      · exact rewrites_wanted pending up within
    · rename_i held
      exact rewrites_level held (fun _ => up) (.inr within) (num_lower_le_left _ _) fun _ => num_lower_le_right _ _
    · exact .refl s l

/-- R30, R45: a countdown goes on, lowered or not, with 1 ms left at least. -/
theorem rewrites_countdown (s : State) {l : Lease} {c c' : Countdown} (held : l.state = .held (some c))
    (left : 1 ≤ c.left → 1 ≤ c'.left) (lower : c'.left ≤ c.left) :
    Rewrites s l { l with state := .held (some c') } where
  holder := rfl
  domain := rfl
  origin := rfl
  tag := rfl
  code := rfl
  window := rfl
  live := by simp [Lease.live, held]
  wanted := .inl rfl
  granted := .inl (Nat.le_refl _)
  lawful := by
    intro _ ⟨wanted, range, granted, state⟩
    rw [held] at state
    obtain ⟨some, same, counts⟩ := state
    obtain ⟨low, high⟩ := counts c rfl
    refine ⟨wanted, range, granted, some, same, fun x hx => ?_⟩
    cases hx
    exact ⟨left low, lower.trans high⟩

/-! ### The parts of a fault event -/

/-- R83: a fault event is a change of the engines' side, then endings of leases, then a post. -/
theorem faultEvent_relation (rel : State → State → Prop) (refl : ∀ s, rel s s)
    (trans : ∀ s t u, rel s t → rel t u → rel s u) (engines : ∀ s t, engineSide s t → rel s t)
    (ends : ∀ i cause s, rel s (endLease i cause s)) (posts : ∀ a n s, rel s (s.post a n)) (d : Managed)
    (cause : FaultCause) (s : State) : rel s (faultEvent d cause s) := by
  have all : ∀ is c t, rel t (endAll is c t) := fun is c t => foldl_relation rel refl trans _ (fun t i => ends i c t) is t
  have below : ∀ t, rel t ((s.descendants d).foldl (fun u e => endAll (u.list e) .parentFault u) t) :=
    foldl_relation rel refl trans _ (fun u e => all (u.list e) .parentFault u) (s.descendants d)
  have cut := engines s _ (engineSide_cutAll d cause s)
  exact trans _ _ _ (trans _ _ _ (trans _ _ _ cut (all _ .fault _)) (below _)) (posts 0 (.fault d cause 1) _)

end Sys2Proof.Machine
end

section
/-! The lease table's events are chains of deeds (R29 to R43, R104, R116 to R118). -/

namespace Sys2Proof.Machine

theorem deeds_post {b : Bool} (a : Agent) (n : Notice) (s : State) : Deeds b s (s.post a n) := .single (.queues _)

/-! ### Reports, claims and expiries -/

/-- R32: the report of a domain at one lease of its list. -/
theorem deeds_reportLease {b : Bool} {s : State} {d : Managed} {i : SlotId} (mem : i ∈ s.list d) :
    Deeds b s (reportLease (s.assuredOf d) i s) := by
  have onDomain : ∀ l, s.lease i = some l → listLaw s → l.domain = d := by
    intro l h lists
    have on := ((lists d).2 i).1 mem
    simp only [State.liveOn, h, Option.any_some, Bool.and_eq_true, beq_iff_eq] at on
    exact on.2
  unfold reportLease
  split
  · rename_i l h
    split
    · rename_i pending
      split
      · rename_i met
        have grant := rewrites_grant (level := l.wanted) pending (fun lawful => lawful.1) (.inl rfl) fun lists => by
          rw [onDomain l h lists]; exact met
        exact (deeds_post _ _ _).head (.rewrite h grant)
      · exact .refl
    · rename_i held
      split
      · have level := rewrites_level (level := l.wanted) held (fun lawful : l.lawful => lawful.1) (.inl rfl)
          (num_lower_le_left l.wanted (s.assuredOf d))
          fun lists => by rw [onDomain l h lists]; exact num_lower_le_right _ _
        exact (deeds_post _ _ _).head (.rewrite h level)
      · exact .refl
    · exact .refl
  · exact .refl

theorem list_reportLease (assured : Level) (i : SlotId) (s : State) : (reportLease assured i s).list = s.list := by
  unfold reportLease
  repeat' split
  all_goals rfl

theorem deeds_reportLeases {b : Bool} {d : Managed} {level : Level} (l : List SlotId) {s : State}
    (mem : ∀ i ∈ l, i ∈ s.list d) (assured : s.assuredOf d = level) :
    Deeds b s (l.foldl (fun t i => reportLease level i t) s) := by
  induction l generalizing s with
  | nil => exact .refl
  | cons i l ih =>
    subst assured
    have rest := ih (s := reportLease (s.assuredOf d) i s)
      (fun j hj => by rw [list_reportLease]; exact mem j (List.mem_cons_of_mem i hj))
      (by unfold State.assuredOf; rw [(leaseSide_reportLease _ i s).engine])
    exact (deeds_reportLease (mem i List.mem_cons_self)).trans rest

theorem deeds_takeReport {b : Bool} (d : Managed) (s : State) : Deeds b s (takeReport d s) := by
  unfold takeReport
  split
  · exact (deeds_reportLeases (s := s.setReport d none) _ (fun _ h => h) rfl).head
      (.outside ⟨_, _, _, _, _, _, _, _, _, rfl⟩)
  · exact .refl

/-- R103, R104: the reload claims of an address. -/
theorem deeds_matchAddress {b : Bool} (a : Address) (s : State) : Deeds b s (matchAddress a s) := by
  refine .foldl _ (fun s w => .foldl _ (fun s i => ?_) _ s) _ s
  unfold reloadAt
  split
  · rename_i l h
    split
    · exact .single (.rewrite h (rewrites_reload s l))
    · exact .refl
  · exact .refl

theorem deeds_takeTapWord {b : Bool} (bits : List Bool) (s : State) : Deeds b s (takeTapWord bits s) := by
  unfold takeTapWord
  split
  · exact .refl
  · split
    · exact deeds_matchAddress _ s
    · exact .refl

/-- R30: what a tick makes of a countdown that goes on. -/
theorem rewrites_tick (s : State) {l : Lease} {c : Countdown} (held : l.state = .held (some c)) :
    Rewrites s l { l with state := .held (some c.tick) } := by
  refine rewrites_countdown s held ?_ ?_ <;> unfold Countdown.tick <;> dsimp only <;> split <;> omega

theorem deeds_tickLease {b : Bool} (s : State) (i : SlotId) : Deeds b s (tickLease s i) := by
  unfold tickLease
  split
  · rename_i h
    split
    · rename_i held
      split
      · exact .single (.ended i _)
      · exact .single (.rewrite h (rewrites_tick s held))
    · exact .refl
  · exact .refl

/-- R30: the lease table's share of a tick. -/
theorem deeds_tickLeases {b : Bool} (s : State) : Deeds b s (tickLeases s) := .foldl _ deeds_tickLease _ s

theorem deeds_takeExpiry {b : Bool} (i : SlotId) (s : State) : Deeds b s (takeExpiry i s) := by
  unfold takeExpiry
  split
  · rename_i h
    split
    · rename_i held
      split
      · exact .single (.rewrite h (rewrites_countdown s held id (Nat.le_refl _)))
      · split
        · exact .single (.ended i _)
        · exact .refl
    · exact .refl
  · exact .refl

/-! ### The making of a lease -/

/-- R24: with no shortfall the agent holds fewer slots than its quota. -/
theorem room_of_shortfall {s : State} {a : Agent} (h : s.shortfall a = none) :
    (s.slotsOf a).length < Config.quota := by
  unfold State.shortfall at h
  split at h
  · cases h
  · exact Nat.lt_of_not_le ‹_›

theorem newLease_holder (a : Agent) (d : Managed) (term : Term) (wanted : Level) (tag : Tag) (origin : Origin)
    (assured : Level) : (newLease a d term wanted tag origin assured).holder = a := by
  unfold newLease
  split <;> rfl

theorem newLease_term (a : Agent) (d : Managed) (term : Term) (wanted : Level) (tag : Tag) (origin : Origin)
    (assured : Level) : (newLease a d term wanted tag origin assured).term = term := by
  unfold newLease
  split <;> rfl

/-- R27, R33: a new lease is granted no more than is assured. -/
theorem newLease_granted (a : Agent) (d : Managed) (term : Term) (wanted : Level) (tag : Tag) (origin : Origin)
    (assured : Level) : grantedNum (newLease a d term wanted tag origin assured).granted ≤ assured.num := by
  unfold newLease
  split
  · assumption
  · exact Nat.zero_le _

theorem newLease_lawful {term : Term} {wanted : Level} (range : term.inRange) (up : wanted ≠ .off) (a : Agent)
    (d : Managed) (tag : Tag) (origin : Origin) (assured : Level) :
    (newLease a d term wanted tag origin assured).lawful := by
  unfold newLease
  split
  · exact ⟨up, range, Nat.le_refl _, rfl, by simp, start_inRange range⟩
  · exact ⟨up, range, Nat.zero_le _, rfl⟩

/-- R27: the lease that a creation settles against the assured level may be made. -/
theorem makes_newLease {s : State} {i : SlotId} {a : Agent} {d : Managed} {term : Term} {wanted : Level}
    (running : s.partState = .run) (free : s.lowestFree = some i) (sound : ¬ s.faultAtOrAbove d = true)
    (admits : ∀ l : Lease, l.domain = d → l.wanted = wanted → s.admits l) (short : s.shortfall a = none)
    (window : s.windowDefined term = true) (range : templateLaw s → term.inRange) (up : templateLaw s → wanted ≠ .off)
    (tag : Tag) (origin : Origin) : Makes s i (newLease a d term wanted tag origin (s.assuredOf d)) where
  running := running
  free := lease_lowestFree free
  live := newLease_live _ _ _ _ _ _ _
  sound := by rw [newLease_domain]; exact Bool.eq_false_iff.2 sound
  admits := admits _ (newLease_domain _ _ _ _ _ _ _) (newLease_wanted _ _ _ _ _ _ _)
  room := by rw [newLease_holder]; exact room_of_shortfall short
  window := by rw [newLease_term]; exact window
  lawful := fun templates => newLease_lawful (range templates) (up templates) _ _ _ _ _
  granted := by rw [newLease_domain]; exact newLease_granted _ _ _ _ _ _ _

theorem slot_placeLease_self (i : SlotId) (l : Lease) (s : State) :
    (placeLease i l s).slot i = { s.slot i with lease := some l } := by
  rw [placeLease_eq_withNewLease]
  exact slot_setSlot_self s i _

/-- R112: the handle of a new lease names it. -/
theorem named_placeLease_self (i : SlotId) (l : Lease) (s : State) : (placeLease i l s).named (s.handle i) = some l := by
  unfold State.named
  rw [State.handle, slot_placeLease_self, if_pos rfl, lease_placeLease, if_pos rfl]

/-! ### Wake claims -/

/-- R28, R117: a creation makes the lease, and the line's link names it. -/
theorem deeds_wakeCreation {k : LineId} {t : Template} {s : State} (running : s.partState = .run)
    (enabled : (s.wake k).enabled = true) (template : (s.wake k).template = some t) :
    Deeds true s (wakeCreation k t s).1 := by
  unfold wakeCreation
  split
  · exact .refl
  · rename_i sound
    split
    · exact .refl
    · exact .refl
    · exact .refl
    · rename_i i short free
      have makes := makes_newLease running free sound
        (fun l domain wanted => .inr ⟨k, enabled, t, template, domain, wanted⟩) short
        (term := .timed t.duration) rfl
        (fun templates n hn => by cases hn; exact (templates k t template).2) (fun templates => (templates k t template).1)
        0 (.line k)
      have names : (placeLease i (newLease (s.wake k).agent t.domain (.timed t.duration) t.level 0 (.line k)
          (s.assuredOf t.domain)) s).linkNames k (s.handle i) = true := by
        unfold State.linkNames
        rw [named_placeLease_self, wake_placeLease, template, newLease_timed]
        by_cases met : t.level.num ≤ (s.assuredOf t.domain).num <;> simp [met, Lease.live, Term.code]
      have linked := Deed.link (b := true) names
      rw [wake_placeLease] at linked
      exact .head (.made makes) (.single linked)

/-- R116 to R118: a claim of an enabled line in RUN. -/
theorem deeds_wakeClaim {k : LineId} {s : State} (running : s.partState = .run) (enabled : (s.wake k).enabled = true) :
    Deeds true s (wakeClaim k s) := by
  refine Relation.ReflTransGen.trans ?_ (deeds_post _ _ _)
  unfold settleClaim
  split
  · exact .refl
  · rename_i t template
    split
    · rename_i i l linked
      refine .single (.rewrite (lease_of_linked linked) (rewrites_renew s l fun templates n hn => ?_))
      cases hn
      exact (templates k t template).2
    · exact deeds_wakeCreation running enabled template

theorem deed_setBaseline {b : Bool} (k : LineId) (baseline : Option Bool) (s : State) :
    Deed b s (s.setWake k { s.wake k with baseline := baseline }) := by
  refine .baselines fun j => ?_
  have write := wake_setWake s j k { s.wake k with baseline := baseline }
  change ∃ x, (s.setWake k { s.wake k with baseline := baseline }).wake j = _
  rw [write]
  split
  · subst j; exact ⟨_, rfl⟩
  · exact ⟨_, rfl⟩

theorem deeds_takeEdge (k : LineId) (level : Bool) (s : State) : Deeds true s (takeEdge k level s) := by
  unfold takeEdge
  split
  · split
    · rename_i edge
      have sampled := deed_setBaseline (b := true) k (some level) s
      obtain ⟨⟨running, enabled⟩, _⟩ : (s.partState = .run ∧ (s.wake k).enabled = true) ∧ _ := by
        simpa [State.detectorActive] using edge.1
      split
      · exact .head sampled (deeds_wakeClaim running (by simpa using enabled))
      · exact .single sampled
    · exact .refl
  · exact .refl

/-! ### The freeing of slots -/

theorem deeds_freeSlots (is : List SlotId) (s : State) : Deeds false s (freeSlots is s) :=
  .foldl _ (fun _ i => .single (.freed i)) is s

theorem deeds_detachAgent (a : Agent) (s : State) : Deeds false s (detachAgent a s) :=
  (deeds_freeSlots _ s).tail (.queues _)

end Sys2Proof.Machine
end

section
/-! The events of the engines and every request are chains of deeds (R51 to R95, R138 to R186). -/

namespace Sys2Proof.Machine

/-! ### Events of the engines -/

theorem Moves.deeds {b : Bool} {s t : State} (h : Moves s t) : Deeds b s t := by
  induction h with
  | refl => exact .refl
  | tail _ last ih =>
    obtain ⟨d, last⟩ := last
    exact ih.tail (.move last)

theorem deeds_endStopping {b : Bool} (s : State) : Deeds b s (endStopping s) := by
  unfold endStopping
  split
  · rename_i h; exact .single (.stopped h.1 h.2)
  · exact .refl

theorem deeds_refreshDetectors {b : Bool} (s : State) : Deeds b s (refreshDetectors s) := by
  rw [refreshDetectors_eq]
  refine .single (.baselines fun k => ?_)
  simp only [Fin.getElem_fin, Vector.getElem_ofFn]
  unfold refreshDetector
  split <;> exact ⟨_, rfl⟩

theorem deeds_closeEvent {b : Bool} (order : List Managed) (old new : State) :
    Deeds b new (closeEvent order old new) :=
  ((deeds_endStopping new).trans (deeds_refreshDetectors _)).tail (.outside ⟨_, _, _, _, _, _, _, _, _, rfl⟩)

theorem Moves.deeds_event {b : Bool} {s t : State} (h : Moves s t) (order : List Managed) (old : State) :
    Deeds b s (closeEvent order old t) :=
  h.deeds.trans (deeds_closeEvent order old t)

theorem deeds_takeFault {b : Bool} {s : State} {d : Managed} (cause : FaultCause)
    (fails : (s.engine d).state.canFail = true) : Deeds b s (takeFault d cause s) :=
  (deeds_closeEvent _ s _).head (.fault fails)

theorem deeds_endDrain {b : Bool} {d : Managed} {s : State} (at_ : (s.engine d).state = .draining) :
    Deeds b s (endDrain d s) := by
  unfold endDrain
  split
  · exact deeds_takeFault _ (by rw [at_]; rfl)
  · exact (moves_arrive_of_reaches (.drained at_)).deeds_event _ _

/-- An event that is taken in some states alone. -/
theorem deeds_guarded {b : Bool} {c : Prop} [Decidable c] {s t : State} (h : c → Deeds b s t) :
    Deeds b s (if c then t else s) := by
  split
  · exact h ‹_›
  · exact .refl

/-- An event that a held reset shuts out. -/
theorem deeds_unlessHeld {b : Bool} {s t : State} (h : Deeds b s t) :
    Deeds b s (if s.resetHeld = true then s else t) := by
  split
  · exact .refl
  · exact h

/-- An input takes its level, and the event acts on it unless a reset is held. -/
theorem deeds_input {b : Bool} {s u t : State} (input : outside s u) (h : Deeds b u t) :
    Deeds b s (if s.resetHeld = true then u else t) := by
  split
  · exact .single (.outside input)
  · exact .head (.outside input) h

/-- R51: an expiry is taken in its timed state. -/
theorem deeds_onExpiry {b : Bool} {st : EngineState} {d : Managed} {effect : State → State} {s : State}
    (h : (s.engine d).state = st → Deeds b s (effect s)) : Deeds b s (onExpiry st d effect s) := by
  refine deeds_guarded fun due => h ?_
  have expiry := due.2
  simp only [State.expiryDue, Bool.and_eq_true, beq_iff_eq] at expiry
  exact expiry.1

/-! ### What a command comes to -/

/-- A command but the part reset comes to a chain of deeds that makes leases, or to one that frees slots, or it has written
a record in SETUP (R173). -/
inductive Result (s : State) : State → Prop
  | making {t : State} (h : Deeds true s t) : Result s t
  | freeing {t : State} (h : Deeds false s t) : Result s t
  | defining {t : State} {d : Managed} {r : Option DomainRecord} (setup : s.partState = .setup)
      (sound : (s.engine d).state ≠ .fault) (inRange : ∀ x ∈ r, x.inRange d) (h : outside (s.setRecord d r) t) : Result s t

theorem Result.refl (s : State) : Result s s := .freeing .refl

theorem outside.trans {s t u : State} (h : outside s t) (k : outside t u) : outside s u := by
  obtain ⟨_, _, _, _, _, _, _, _, _, rfl⟩ := h
  obtain ⟨_, _, _, _, _, _, _, _, _, rfl⟩ := k
  exact ⟨_, _, _, _, _, _, _, _, _, rfl⟩

/-- A reply at a port ends a command. -/
theorem Result.outside {s t u : State} (h : Result s t) (k : Machine.outside t u) : Result s u := by
  cases h with
  | making h => exact .making (h.tail (.outside k))
  | freeing h => exact .freeing (h.tail (.outside k))
  | defining setup sound inRange h => exact .defining setup sound inRange (h.trans k)

/-! ### The agents' requests -/

/-- R154: the meaning pass of ACQUIRE lets pass a level above OFF and a term whose window is defined. -/
theorem up_windowDefined_of_acquireMeaning {s : State} {f : AcquireFields} {d : Managed}
    (h : acquireMeaning s f = .ok d) : f.level ≠ .off ∧ s.windowDefined f.term = true := by
  unfold acquireMeaning at h
  split at h
  · cases h
  · split at h
    · cases h
    · split at h
      · cases h
      · rename_i level
        split at h
        · cases h
        · rename_i window
          push Not at level
          exact ⟨level.1, by simpa using window⟩

theorem shortfall_of_acquireSlot {s : State} {p : Agent} {d : Managed} {i : SlotId} (h : acquireSlot s p d = .ok i) :
    s.shortfall p = none := by
  unfold acquireSlot at h
  split at h
  · cases h
  · split at h <;> cases h
    assumption

/-- R153: the time that ACQUIRE asks for is in range. -/
theorem decodeTerm_inRange {body : List Byte} {term : Term} (h : decodeTerm body = some term) : term.inRange := by
  unfold decodeTerm at h
  intro n hn
  split at h
  · obtain ⟨m, between, rfl⟩ := Option.map_eq_some_iff.1 h
    cases hn
    obtain ⟨rfl, low, high⟩ := decodeBetween_eq_some.1 between
    exact ⟨low, high⟩
  · split at h
    · rename_i between
      cases h
      cases hn
      obtain ⟨rfl, low, high⟩ := decodeBetween_eq_some.1 between
      exact ⟨low, high⟩
    · cases h
  · cases h; cases hn
  · cases h

theorem deeds_doAcquire (p : Agent) (body : List Byte) {s : State} (running : s.partState = .run) :
    Deeds true s (doAcquire p body s).1 := by
  unfold doAcquire
  split
  · exact .refl
  · rename_i decoded
    split
    · exact .refl
    · rename_i meaning
      split
      · exact .refl
      · rename_i slot
        obtain ⟨sound, free⟩ := sound_free_of_acquireSlot slot
        obtain ⟨up, window⟩ := up_windowDefined_of_acquireMeaning meaning
        obtain ⟨_, _, term⟩ := range_of_decodeAcquire decoded
        exact .single (.made (makes_newLease running free sound (admits_of_acquireMeaning meaning)
          (shortfall_of_acquireSlot slot) window (fun _ => decodeTerm_inRange term)
          (fun _ => up) _ _))

/-- R198: a field of two bytes. -/
theorem fieldAt_two_le (body : List Byte) (i : Nat) : fieldAt body i 2 ≤ 65535 := by
  unfold fieldAt
  have short : ((body.drop i).take 2).length ≤ 2 := List.length_take_le _ _
  match (body.drop i).take 2, short with
  | [], _ => simp
  | [b], _ => have := b.isLt; simp; omega
  | [b, c], _ => have := b.isLt; have := c.isLt; simp; omega

/-- R156: the time of RENEW. -/
theorem renewTime_inRange (body : List Byte) : ∀ n ∈ renewTime body, 1 ≤ n ∧ n ≤ 65535 := by
  intro n hn
  unfold renewTime at hn
  split at hn
  · cases hn
  · cases hn
    exact ⟨Nat.one_le_iff_ne_zero.2 ‹_›, fieldAt_two_le body 2⟩

theorem deeds_doRenew (p : Agent) (body : List Byte) (s : State) : Deeds false s (doRenew p body s).1 := by
  unfold doRenew
  split
  · exact .refl
  · split
    · exact .refl
    · rename_i l own
      split
      · exact .refl
      · split
        · exact .refl
        · exact .single (.rewrite (lease_of_ownLease own) (rewrites_renew s l fun _ => renewTime_inRange body))

theorem deeds_modifyLease {s : State} {i : SlotId} {l : Lease} (h : s.lease i = some l) {level : Level}
    (up : level ≠ .off) (within : ∀ r ∈ s.record l.domain, level.num ≤ r.maxLevel.num) :
    Deeds false s (modifyLease i level l s).1 := by
  have changed : Deed false s (s.setLease i (l.modify level (s.assuredOf l.domain))) :=
    .rewrite h (rewrites_modify up within)
  unfold modifyLease accept
  dsimp only
  split
  · split
    · exact .head changed (.single (.queues _))
    · exact .single changed
  · exact .single changed

theorem deeds_doModify (p : Agent) (body : List Byte) (s : State) : Deeds false s (doModify p body s).1 := by
  unfold doModify
  split
  · rename_i level _ _
    split
    · exact .refl
    · rename_i fits
      split
      · exact .refl
      · rename_i l own
        split
        · exact .refl
        · have up : level ≠ .off := by rintro rfl; exact fits rfl
          refine deeds_modifyLease (lease_of_ownLease own) up fun r record => ?_
          have known : ¬ (level = .off ∨ r.maxLevel.num < level.num) := by
            simpa [modifyBadLevel, named_of_ownLease own, Option.mem_def.1 record] using fits
          exact Nat.le_of_not_lt fun above => known (.inr above)
  · exact .refl

theorem deeds_doRelease (p : Agent) (body : List Byte) (s : State) : Deeds false s (doRelease p body s).1 := by
  unfold doRelease
  split
  · exact .refl
  · split
    · exact .refl
    · exact .single (.freed _)

theorem deeds_doTakeNotice (p : Agent) (body : List Byte) (s : State) : Deeds false s (doTakeNotice p body s).1 := by
  unfold doTakeNotice
  split
  · exact .refl
  · rename_i n rest _
    have taken : Deed false s (s.setQueue p rest) := .queues _
    cases n with
    | ended h cause => exact .head taken (.single (.freed h.slot))
    | granted | wake | fault => exact .single taken

/-! ### The supervisor's requests -/

theorem result_doDefineDomain (p : Agent) (body : List Byte) {s : State} (setup : s.partState = .setup) :
    Result s (doDefineDomain p body s).1 := by
  unfold doDefineDomain
  split
  · exact .refl s
  · rename_i decoded
    split
    · exact .refl s
    · rename_i sound
      exact .defining setup sound (decodeDefineDomain_inRange decoded) ⟨_, _, _, _, _, _, _, _, _, rfl⟩

/-- R121: a line's new record has no link. -/
theorem link_of_decodeDefineWake {body : List Byte} {k : LineId} {w : WakeLine}
    (h : decodeDefineWake body = some (k, w)) : w.link = none := by
  unfold decodeDefineWake at h
  split at h
  · cases h; rfl
  · cases h

theorem deeds_doDefineWake (p : Agent) (body : List Byte) {s : State} (setup : s.partState = .setup) :
    Deeds false s (doDefineWake p body s).1 := by
  unfold doDefineWake
  split
  · exact .refl
  · rename_i decoded
    exact .single (.line setup (decodeDefineWake_inRange decoded) (link_of_decodeDefineWake decoded))

theorem deeds_doSetWindow (p : Agent) (body : List Byte) (s : State) : Deeds false s (doSetWindow p body s).1 := by
  unfold doSetWindow
  split
  · exact .refl
  · rename_i decoded
    exact .single (.window (by simpa using decodeSetWindow_inRange decoded) (by simp))

theorem deeds_doClearWindow (p : Agent) (body : List Byte) (s : State) : Deeds false s (doClearWindow p body s).1 := by
  unfold doClearWindow
  split
  · exact .refl
  · split
    · exact .refl
    · rename_i unused
      exact .single (.window (by simp) fun _ => Nat.eq_zero_of_not_pos unused)

theorem deeds_doSetWakeEnable (p : Agent) (body : List Byte) (s : State) : Deeds false s (doSetWakeEnable p body s).1 := by
  unfold doSetWakeEnable
  split
  · exact .refl
  · split
    · exact .refl
    · rename_i valid
      dsimp only [accept]
      split
      · exact .refl
      · rename_i differs
        refine (deeds_refreshDetectors _).head (.enable fun enabled => ?_)
        subst enabled
        by_contra invalid
        exact valid ⟨rfl, by simpa using Ne.symm differs, by simpa using invalid⟩

theorem deeds_doStart (p : Agent) (body : List Byte) {s : State} (setup : s.partState = .setup) :
    Deeds false s (doStart p body s).1 := by
  unfold doStart
  split
  · exact .refl
  · split
    · exact .refl
    · rename_i domains
      split
      · exact .refl
      · rename_i lines
        rw [List.find?_eq_none] at domains lines
        exact (deeds_refreshDetectors _).head (.start setup (fun d => by simpa using domains d (mem_allManaged d))
          fun k => by simpa using lines k (mem_allLines k))

theorem deeds_restartPart {s : State} (running : s.partState = .run) : Deeds false s (restartPart s) := by
  have freed : Deeds false s (emptyQueues (freeSlots s.usedSlots s)) := (deeds_freeSlots _ s).tail (.queues _)
  have stop := Deed.stop (b := false) (s := emptyQueues (freeSlots s.usedSlots s))
    ((leaseSide_freeSlots _ s).partState.trans running) (lease_freeSlots_usedSlots s)
  exact ((freed.tail stop).trans (deeds_endStopping _)).trans (deeds_refreshDetectors _)

theorem deeds_doRevoke (p : Agent) (body : List Byte) (s : State) : Deeds false s (doRevoke p body s).1 := by
  unfold doRevoke
  split
  · exact .refl
  · split
    · exact .refl
    · split
      · exact .refl
      · exact .single (.ended _ _)

theorem deeds_doEvict (p : Agent) (body : List Byte) (s : State) : Deeds false s (doEvict p body s).1 := by
  unfold doEvict
  split
  · exact .refl
  · exact deeds_detachAgent _ s

theorem deeds_doClearFault (p : Agent) (body : List Byte) (s : State) : Deeds false s (doClearFault p body s).1 := by
  unfold doClearFault
  split
  · exact .refl
  · rename_i d _
    split
    · exact .refl
    · rename_i fault
      split
      · exact .refl
      · rename_i drains
        split
        · exact .refl
        · have clear := Move.clear (not_not.1 fault) (Bool.eq_false_iff.2 drains)
          exact Moves.deeds_event ((moves_arrive d .off _).head ⟨d, clear⟩) _ _

/-! ### A request at a port -/

theorem result_own (r : Request) (p : Agent) (body : List Byte) {s : State} (admitted : r.admission s.partState = none) :
    Result s (r.own p body s).1 := by
  have setup : admitSetup s.partState = none → s.partState = .setup := by unfold admitSetup; split <;> simp [*]
  have running : admitRun s.partState = none → s.partState = .run := by unfold admitRun; split <;> simp [*]
  cases r with
  | status => exact .refl s
  | queryDomain => exact (doQueryDomain_state p body s).symm ▸ .refl s
  | queryLease => exact (doQueryLease_state p body s).symm ▸ .refl s
  | listLeases => exact (doListLeases_state p body s).symm ▸ .refl s
  | queryWake => exact (doQueryWake_state p body s).symm ▸ .refl s
  | acquire => exact .making (deeds_doAcquire p body (running admitted))
  | renew => exact .freeing (deeds_doRenew p body s)
  | modify => exact .freeing (deeds_doModify p body s)
  | release => exact .freeing (deeds_doRelease p body s)
  | takeNotice => exact .freeing (deeds_doTakeNotice p body s)
  | detach => exact .freeing (deeds_detachAgent p s)
  | defineDomain => exact result_doDefineDomain p body (setup admitted)
  | defineWake => exact .freeing (deeds_doDefineWake p body (setup admitted))
  | setWindow => exact .freeing (deeds_doSetWindow p body s)
  | clearWindow => exact .freeing (deeds_doClearWindow p body s)
  | setWakeEnable => exact .freeing (deeds_doSetWakeEnable p body s)
  | start => exact .freeing (deeds_doStart p body (setup admitted))
  | restart => exact .freeing (deeds_restartPart (running admitted))
  | revoke => exact .freeing (deeds_doRevoke p body s)
  | evict => exact .freeing (deeds_doEvict p body s)
  | clearFault => exact .freeing (deeds_doClearFault p body s)

theorem result_checked (r : Request) (p : Agent) (body : List Byte) (s : State) :
    Result s (checked r r.own p body s).1 := by
  unfold checked
  split
  · exact .refl s
  · rename_i taken
    exact result_own r p body (admission_of_earlyRefusal taken)

theorem result_frameEnd {own : Agent → List Byte → State → State × Reply} {p : Agent} {body : List Byte} {s : State}
    (h : Result s (own p body s).1) (seq : Byte) : Result s (frameEnd own p seq body s) := by
  unfold frameEnd
  split
  · exact .refl s
  · split
    · exact (Result.refl s).outside ⟨_, _, _, _, _, _, _, _, _, rfl⟩
    · split
      · exact .refl s
      · exact h.outside ⟨_, _, _, _, _, _, _, _, _, rfl⟩

theorem result_request (r : Request) (p : Agent) (seq : Byte) (body : List Byte) (s : State) :
    Result s (frameEnd (checked r r.own) p seq body s) :=
  result_frameEnd (result_checked r p body s) seq

theorem result_byCode (code : Byte) (p : Agent) (seq : Byte) (body : List Byte) (s : State) :
    Result s (frameEnd (requestByCode code) p seq body s) := by
  refine result_frameEnd ?_ seq
  unfold requestByCode
  split
  · exact result_checked _ p body s
  · exact .refl s

theorem result_exchangeEnd (p : Agent) (bits : List Bool) (s : State) : Result s (exchangeEnd p bits s) := by
  unfold exchangeEnd
  split
  · exact .refl s
  · split
    · exact (Result.refl s).outside ⟨_, _, _, _, _, _, _, _, _, rfl⟩
    · exact .refl s
  · exact result_byCode _ p _ _ s

/-! ### Commands -/

theorem result_exec {c : Instr} {s t : State} (h : exec c s = .next t) : (c = .partReset ∧ t = resetPart s) ∨ Result s t := by
  cases c
  all_goals rw [← next_injective h]
  case partReset => exact .inl ⟨rfl, rfl⟩
  all_goals refine .inr ?_
  case status p seq body => exact result_request .status p seq body s
  case queryDomain p seq body => exact result_request .queryDomain p seq body s
  case queryLease p seq body => exact result_request .queryLease p seq body s
  case listLeases p seq body => exact result_request .listLeases p seq body s
  case acquire p seq body => exact result_request .acquire p seq body s
  case renew p seq body => exact result_request .renew p seq body s
  case modify p seq body => exact result_request .modify p seq body s
  case release p seq body => exact result_request .release p seq body s
  case takeNotice p seq body => exact result_request .takeNotice p seq body s
  case detach p seq body => exact result_request .detach p seq body s
  case defineDomain p seq body => exact result_request .defineDomain p seq body s
  case defineWake p seq body => exact result_request .defineWake p seq body s
  case setWindow p seq body => exact result_request .setWindow p seq body s
  case clearWindow p seq body => exact result_request .clearWindow p seq body s
  case setWakeEnable p seq body => exact result_request .setWakeEnable p seq body s
  case queryWake p seq body => exact result_request .queryWake p seq body s
  case start p seq body => exact result_request .start p seq body s
  case restart p seq body => exact result_request .restart p seq body s
  case revoke p seq body => exact result_request .revoke p seq body s
  case evict p seq body => exact result_request .evict p seq body s
  case clearFault p seq body => exact result_request .clearFault p seq body s
  case unknownRequest p seq code body => exact result_byCode code p seq body s
  case retransmission p seq code body => exact result_byCode code p seq body s
  case badFrame p bits => exact result_exchangeEnd p bits s
  case idleExchange p bits => exact result_exchangeEnd p bits s
  case lineEvent k b => exact .making (deeds_input (outside_setLine k b s) (deeds_takeEdge k b _))
  all_goals refine .freeing ?_
  case tapWord bits => exact deeds_takeTapWord bits s
  case pgoodAsserted d =>
    exact deeds_input (outside_setPgood d _ s) (deeds_guarded fun h => (moves_seePgood h.1).deeds_event _ _)
  case pgoodDeasserted d =>
    exact deeds_input (outside_setPgood d _ s)
      (deeds_guarded fun h => deeds_takeFault _ (canFail_of_supervisesPgood h.1))
  case ckokAsserted d =>
    exact deeds_input (outside_setCkok d _ s)
      (deeds_guarded fun h => (moves_arrive_of_reaches (.clock h.1 h.2)).deeds_event _ _)
  case ckokDeasserted d =>
    exact deeds_input (outside_setCkok d _ s)
      (deeds_guarded fun h => deeds_takeFault _ (canFail_of_supervisesCkok h.1))
  case tick => exact deeds_unlessHeld ((deeds_tickLeases s).tail .timers)
  case leaseExpiry i => exact deeds_unlessHeld (.head .settle (deeds_takeExpiry i _))
  case railUpExpiry d => exact deeds_onExpiry fun at_ => deeds_takeFault _ (by rw [at_]; rfl)
  case settleExpiry d => exact deeds_onExpiry fun at_ => (moves_endSettle (by rw [at_]; rfl)).deeds_event _ _
  case clockUpExpiry d => exact deeds_onExpiry fun at_ => deeds_takeFault _ (by rw [at_]; rfl)
  case boostUpExpiry d => exact deeds_onExpiry fun at_ => (moves_arrive_of_reaches (.boost at_)).deeds_event _ _
  case boostDownExpiry d => exact deeds_onExpiry fun at_ => (moves_arrive_of_reaches (.run at_)).deeds_event _ _
  case drainEnd d => exact deeds_onExpiry deeds_endDrain
  case faultDrainExpiry d => exact deeds_onExpiry fun at_ => (Move.complete at_).moves.deeds_event _ _
  case stepBegin d => exact deeds_unlessHeld ((moves_takeStep d s).deeds_event _ _)
  case rampGrant => exact deeds_unlessHeld ((moves_grantChain _ s).deeds_event _ _)
  case levelReachedReport d => exact deeds_unlessHeld (deeds_takeReport d s)
  case partResetRelease cs tfrm => exact deeds_guarded fun _ => .single (.outside ⟨_, _, _, _, _, _, _, _, _, rfl⟩)
  case chipSelectDeasserted p => exact deeds_unlessHeld (.single (.outside ⟨_, _, _, _, _, _, _, _, _, rfl⟩))
  case tfrmDeasserted => exact deeds_unlessHeld (.single (.outside ⟨_, _, _, _, _, _, _, _, _, rfl⟩))

/-- A step comes to what its command comes to, once the command is out of the queue. -/
theorem result_step {s t : State} (h : step s = .next t) :
    ∃ u, outside s u ∧ (t = resetPart u ∨ Result u t) := by
  unfold step at h
  split at h
  · exact ⟨s, ⟨_, _, _, _, _, _, _, _, _, rfl⟩, .inr (next_injective h ▸ .refl s)⟩
  · exact ⟨_, ⟨_, _, _, _, _, _, _, _, _, rfl⟩, (result_exec h).imp_left fun reset => reset.2⟩

theorem outside_resetPart (s : State) : outside State.reset (resetPart s) := ⟨_, _, _, _, _, _, _, _, _, rfl⟩

/-- What holds at reset, and every deed and DEFINE_DOMAIN keep, every step keeps. -/
theorem step_keeps_deeds {P : State → Prop} (each : ∀ {b s t}, Deed b s t → P s → P t)
    (define : ∀ {s d r}, s.partState = .setup → (s.engine d).state ≠ .fault → (∀ x ∈ r, x.inRange d) → P s →
      P (s.setRecord d r))
    (reset : P State.reset) {s t : State} (h : step s = .next t) (hs : P s) : P t := by
  have blind : ∀ {s t}, outside s t → P s → P t := fun h => each (b := false) (.outside h)
  obtain ⟨u, taken, rfl | result⟩ := result_step h
  · exact blind (outside_resetPart u) reset
  · have hu := blind taken hs
    cases result with
    | making h => exact h.keeps each hu
    | freeing h => exact h.keeps each hu
    | defining setup sound inRange h => exact blind h (define setup sound inRange hu)

end Sys2Proof.Machine
end

section
/-! The generation of a slot counts its freeings (R23). -/

namespace Sys2Proof.Machine

/-- The slot has kept its generation, and is FREE exactly if it was. -/
def keepsSlot (i : SlotId) (s t : State) : Prop :=
  (t.slot i).generation = (s.slot i).generation ∧ (t.lease i = none ↔ s.lease i = none)

theorem keepsSlot.refl (i : SlotId) (s : State) : keepsSlot i s s := ⟨rfl, Iff.rfl⟩

theorem keepsSlot.trans {i : SlotId} {s t u : State} (h : keepsSlot i s t) (k : keepsSlot i t u) : keepsSlot i s u :=
  ⟨k.1.trans h.1, k.2.trans h.2⟩

theorem keepsSlot.foldl {α : Type} {i : SlotId} (f : State → α → State) (each : ∀ s a, keepsSlot i s (f s a)) (l : List α)
    (s : State) : keepsSlot i s (l.foldl f s) :=
  foldl_relation (keepsSlot i) (.refl i) (fun _ _ _ h k => h.trans k) f each l s

theorem keepsSlot_of_slots {s t : State} (h : t.slots = s.slots) (i : SlotId) : keepsSlot i s t := by
  have slot : t.slot i = s.slot i := by simp [State.slot, h]
  exact ⟨by rw [slot], by rw [lease_eq_of_slot slot]⟩

/-- R23: a rewriting leaves the generation. -/
theorem keepsSlot_setLease {s : State} {j : SlotId} {l : Lease} (h : s.lease j = some l) (l' : Lease) (i : SlotId) :
    keepsSlot i s (s.setLease j l') := by
  by_cases here : i = j
  · subst here
    exact ⟨by simp [State.setLease], by rw [lease_setLease, if_pos rfl, h]; simp⟩
  · exact ⟨by rw [State.setLease, slot_setSlot_ne s here], by rw [lease_setLease, if_neg here]⟩

theorem keepsSlot_settleMarks (s : State) (i : SlotId) : keepsSlot i s (settleMarks s) :=
  ⟨by simp [settleMarks, State.slot], by rw [lease_settleMarks]; simp⟩

/-- R23, R36: an ended lease keeps its slot. -/
theorem keepsSlot_endLease (j : SlotId) (cause : EndCause) (s : State) (i : SlotId) :
    keepsSlot i s (endLease j cause s) := by
  unfold endLease
  split
  · rename_i l h
    split
    · have left := keepsSlot_of_slots (slots_leaveTable j l s) i
      have stays : (leaveTable j l s).lease j = some l := by
        rw [State.lease, State.slot, slots_leaveTable]; exact h
      exact (left.trans (keepsSlot_setLease stays _ i)).trans (keepsSlot_of_slots rfl i)
    · exact .refl i s
  · exact .refl i s

theorem keepsSlot_faultEvent (d : Managed) (cause : FaultCause) (s : State) (i : SlotId) :
    keepsSlot i s (faultEvent d cause s) := by
  refine faultEvent_relation (keepsSlot i) (.refl i) (fun _ _ _ h k => h.trans k) (fun s t h => ?_)
    (fun j c s => keepsSlot_endLease j c s i) (fun _ _ _ => keepsSlot_of_slots rfl i) d cause s
  obtain ⟨_, _, _, _, rfl⟩ := h
  exact keepsSlot_of_slots rfl i

/-- R23: the slot has become FREE, its generation advanced by one. -/
def freesSlot (i : SlotId) (s t : State) : Prop :=
  s.lease i ≠ none ∧ t.slot i = { generation := (s.slot i).generation + 1, lease := none }

/-- R39: the freeing of one slot leaves every other as it is. -/
theorem keepsSlot_or_frees_freeSlot (j : SlotId) (s : State) (i : SlotId) :
    keepsSlot i s (freeSlot j s) ∨ freesSlot i s (freeSlot j s) := by
  cases h : s.lease j with
  | none => rw [freeSlot_free h]; exact .inl (.refl i s)
  | some l =>
    rw [freeSlot_eq_withFreed h]
    have slot := slot_withFreed (fun k => k == j) s i
    by_cases here : i = j
    · subst here
      rw [if_pos (by simp [h])] at slot
      exact .inr ⟨by simp [h], slot⟩
    · rw [if_neg (by simp [here])] at slot
      exact .inl ⟨by rw [slot], by rw [lease_eq_of_slot slot]⟩

/-- R23: what one deed does to a slot. -/
theorem Deed.slot {b : Bool} {s t : State} (h : Deed b s t) (i : SlotId) :
    keepsSlot i s t ∨ (b = false ∧ freesSlot i s t) ∨
      (b = true ∧ (t.slot i).generation = (s.slot i).generation ∧ s.lease i = none) := by
  cases h with
  | outside h =>
    obtain ⟨_, _, _, _, _, _, _, _, _, rfl⟩ := h
    exact .inl (.refl i s)
  | rewrite h _ => exact .inl (keepsSlot_setLease h _ i)
  | settle => exact .inl (keepsSlot_settleMarks s i)
  | ended j cause => exact .inl (keepsSlot_endLease j cause s i)
  | freed j => exact (keepsSlot_or_frees_freeSlot j s i).imp_right fun frees => .inl ⟨rfl, frees⟩
  | @made _ j l makes =>
    by_cases here : i = j
    · subst here
      exact .inr (.inr ⟨rfl, by rw [slot_placeLease_self], makes.free⟩)
    · have slot : (placeLease j l s).slot i = s.slot i := by
        rw [placeLease_eq_withNewLease]
        exact slot_setSlot_ne s here _
      exact .inl ⟨by rw [slot], by rw [lease_eq_of_slot slot]⟩
  | move h =>
    obtain ⟨_, _, _, _, _, rfl⟩ := h.side
    exact .inl (.refl i s)
  | fault => exact .inl (keepsSlot_faultEvent _ _ s i)
  | timers => exact .inl (keepsSlot_of_slots (by simp only [lowerTimers]) i)
  | _ => exact .inl (keepsSlot_of_slots rfl i)

/-- R23: in a step that makes no lease a slot is freed at most once. -/
theorem Deeds.freeing_slot {s t : State} (h : Deeds false s t) (i : SlotId) : keepsSlot i s t ∨ freesSlot i s t := by
  induction h with
  | refl => exact .inl (.refl i s)
  | @tail t u _ last ih =>
    rcases last.slot i with keeps | ⟨_, used, freed⟩ | ⟨making, _⟩
    · refine ih.imp (fun kept => kept.trans keeps) fun ⟨used, freed⟩ => ⟨used, ?_⟩
      obtain ⟨generation, free⟩ := keeps
      have still : u.lease i = none := free.2 (by rw [State.lease, freed])
      calc u.slot i = { generation := (u.slot i).generation, lease := u.lease i } := rfl
        _ = _ := by rw [still, generation, freed]
    · rcases ih with ⟨generation, free⟩ | ⟨_, before⟩
      · exact .inr ⟨fun none => used (free.2 none), by rw [freed, generation]⟩
      · exact absurd (by rw [State.lease, before]) used
    · cases making

/-- R23: in a step that frees no slot the generations stand, and no slot becomes FREE. -/
theorem Deeds.making_slot {s t : State} (h : Deeds true s t) (i : SlotId) :
    (t.slot i).generation = (s.slot i).generation ∧ (s.lease i ≠ none → t.lease i ≠ none) := by
  induction h with
  | refl => exact ⟨rfl, id⟩
  | tail _ last ih =>
    rcases last.slot i with ⟨generation, free⟩ | ⟨freeing, _⟩ | ⟨_, generation, free⟩
    · exact ⟨generation.trans ih.1, fun used none => ih.2 used (free.1 none)⟩
    · cases freeing
    · exact ⟨generation.trans ih.1, fun used => absurd free (ih.2 used)⟩

theorem generation_resetPart (s : State) (i : SlotId) : ((resetPart s).slot i).generation = 0 := by
  simp [resetPart, logPins, State.slot, State.reset]

/-- Settles O28: a command's deeds free slots or make leases, never both, so a slot is freed at most once
(`Deeds.freeing_slot`) or not at all (`Deeds.making_slot`). -/
theorem generationsCountTheFreeings : Obligations.GenerationsCountTheFreeings := by
  refine ⟨fun c s t i notReset h => ?_, fun s t i h => by rw [← next_injective h]; exact generation_resetPart s i⟩
  rcases result_exec h with ⟨reset, _⟩ | result
  · exact absurd reset notReset
  · cases result with
    | making h => exact .inr (h.making_slot i)
    | freeing h =>
      rcases h.freeing_slot i with ⟨generation, free⟩ | freed
      · exact .inr ⟨generation, fun used none => used (free.1 none)⟩
      · exact .inl freed
    | defining _ _ _ h =>
      obtain ⟨_, _, _, _, _, _, _, _, _, rfl⟩ := h
      exact .inr ⟨rfl, id⟩

end Sys2Proof.Machine
end

section
/-! The lease table's laws over every deed: the windows' users, the agents' quotas, the lines' links and the leases
themselves (R19, R24, R33, R102, R112). -/

namespace Sys2Proof.Machine

theorem endLease_cases (i : SlotId) (cause : EndCause) (s : State) :
    endLease i cause s = s ∨ endLease i cause s = withEnded [i] (fun _ => cause) s := by
  cases live : s.liveAt i with
  | false => exact .inl (endLease_not_live cause live)
  | true =>
    cases h : s.lease i with
    | none => simp [State.liveAt, h] at live
    | some l => exact .inr (endLease_eq_withEnded cause h (by simpa [State.liveAt, h] using live))

/-- What the ending of one live lease keeps, every ending keeps. -/
theorem endLease_keeps {P : State → Prop} (each : ∀ order cause s, P s → P (withEnded order cause s)) (i : SlotId)
    (cause : EndCause) (s : State) (hs : P s) : P (endLease i cause s) := by
  rcases endLease_cases i cause s with eq | eq <;> rw [eq]
  · exact hs
  · exact each _ _ s hs

/-- A law that reads slots, windows and wake records alone, and that every ending keeps, a fault event keeps. -/
theorem faultEvent_keeps {P : State → Prop}
    (blind : ∀ {s t}, t.slots = s.slots → t.windows = s.windows → t.wakes = s.wakes → P s → P t)
    (ends : ∀ order cause s, P s → P (withEnded order cause s)) (d : Managed) (cause : FaultCause) {s : State}
    (hs : P s) : P (faultEvent d cause s) := by
  refine faultEvent_relation (fun s t => P s → P t) (fun _ => id) (fun _ _ _ h k => k ∘ h) (fun s t h => ?_)
    (endLease_keeps ends) (fun _ _ _ => blind rfl rfl rfl) d cause s hs
  obtain ⟨_, _, _, _, rfl⟩ := h
  exact blind rfl rfl rfl

/-! ### The users of the windows (R102) -/

/-- Slots are counted as those of a set and those beside it. -/
theorem length_filter_split (gone p : SlotId → Bool) :
    (allSlots.filter p).length =
      (allSlots.filter fun i => gone i && p i).length + (allSlots.filter fun i => p i && !gone i).length := by
  rw [List.length_eq_length_filter_add gone, List.filter_filter, List.filter_filter]
  congr 2
  exact List.filter_congr fun i _ => Bool.and_comm _ _

theorem usersLaw_of_same {s t : State} (watches : t.watches = s.watches) (windows : t.windows = s.windows)
    (hs : usersLaw s) : usersLaw t := by
  have window : t.window = s.window := by funext w; simp [State.window, windows]
  unfold usersLaw
  rw [window, watches]
  exact hs

/-- R36, R39, R102: leases that leave the table are counted out of their windows. -/
theorem usersLaw_of_leave {s t : State} (gone : SlotId → Bool)
    (windows : ∀ w, t.window w = { s.window w with
      users := (s.window w).users - (allSlots.filter fun i => gone i && s.watches w i).length })
    (watches : ∀ w i, t.watches w i = (s.watches w i && !gone i)) (hs : usersLaw s) : usersLaw t := by
  intro w
  obtain ⟨users, used⟩ := hs w
  have counts := length_filter_split gone (s.watches w)
  rw [windows, funext (watches w)]
  exact ⟨by dsimp only; omega, fun more => used (by dsimp only at more; omega)⟩

theorem usersLaw_withEnded (order : List SlotId) (cause : SlotId → EndCause) (s : State) (hs : usersLaw s) :
    usersLaw (withEnded order cause s) :=
  usersLaw_of_leave order.contains (window_withEnded order cause s) (watches_withEnded order cause s) hs

theorem usersLaw_withFreed (gone : SlotId → Bool) (s : State) (hs : usersLaw s) : usersLaw (withFreed gone s) :=
  usersLaw_of_leave gone (window_withFreed gone s) (watches_withFreed gone s) hs

theorem window_placeLease (i : SlotId) (l : Lease) (s : State) (w : WindowId) : (placeLease i l s).window w =
    if l.term.window? = some w then { s.window w with users := (s.window w).users + 1 } else s.window w := by
  rw [placeLease_eq_withNewLease]
  simp [withNewLease, State.window]

/-- R102: a new lease is counted in its window, which is defined. -/
theorem usersLaw_placeLease {s : State} {i : SlotId} {l : Lease} (free : s.lease i = none) (live : l.live = true)
    (window : s.windowDefined l.term = true) (hs : usersLaw s) : usersLaw (placeLease i l s) := by
  intro w
  obtain ⟨users, used⟩ := hs w
  have here := length_filter_watches (s := placeLease i l s) (by rw [lease_placeLease, if_pos rfl]) live w (· == i)
    (by simp)
  have others : (fun j => (placeLease i l s).watches w j && !(j == i)) = s.watches w := by
    funext j
    unfold State.watches
    rw [lease_placeLease]
    by_cases same : j = i
    · subst same; simp [free]
    · simp [same]
  have counts := length_filter_split (· == i) ((placeLease i l s).watches w)
  rw [here, others] at counts
  rw [window_placeLease, counts]
  split
  · rename_i named
    exact ⟨by dsimp only; omega, fun _ => by simpa [State.windowDefined, named] using window⟩
  · exact ⟨by omega, used⟩

theorem watches_of_leases {s t : State} (h : ∀ i, t.lease i = s.lease i ∨ ∃ l l', s.lease i = some l ∧ t.lease i = some l' ∧
    l'.term.window? = l.term.window? ∧ l'.live = l.live) : t.watches = s.watches := by
  funext w i
  unfold State.watches
  rcases h i with eq | ⟨l, l', hl, hl', window, live⟩
  · rw [eq]
  · simp [hl, hl', window, live]

theorem usersLaw_deed {b : Bool} {s t : State} (h : Deed b s t) (hs : usersLaw s) : usersLaw t := by
  cases h with
  | outside h => obtain ⟨_, _, _, _, _, _, _, _, _, rfl⟩ := h; exact hs
  | @window _ _ w range _ unused =>
    intro v
    rw [window_setWindow]
    split
    · subst v
      refine ⟨(hs w).1, fun used => ?_⟩
      dsimp only at used ⊢
      exact Option.isSome_iff_ne_none.2 fun undefined => absurd (unused undefined) (Nat.pos_iff_ne_zero.1 used)
    · exact hs v
  | @rewrite _ _ i l l' h rewrites =>
    refine usersLaw_of_same (s := s) (watches_of_leases fun j => ?_) rfl hs
    rw [lease_setLease]
    split
    · subst j; exact .inr ⟨l, l', h, rfl, rewrites.window, rewrites.live⟩
    · exact .inl rfl
  | settle =>
    refine usersLaw_of_same (watches_of_leases fun i => ?_) (by simp only [settleMarks]) hs
    rw [lease_settleMarks]
    cases s.lease i with
    | none => exact .inl rfl
    | some l => exact .inr ⟨l, _, rfl, rfl, rfl, live_settle l⟩
  | ended i cause => exact endLease_keeps usersLaw_withEnded i cause s hs
  | freed i => rw [freeSlot_eq]; exact usersLaw_withFreed _ s hs
  | made makes => exact usersLaw_placeLease makes.free makes.live makes.window hs
  | move h => obtain ⟨_, _, _, _, _, rfl⟩ := h.side; exact hs
  | fault =>
    refine faultEvent_keeps (fun {s t} slots windows _ => usersLaw_of_same ?_ windows) usersLaw_withEnded _ _ hs
    exact watches_of_leases fun i => .inl (by simp [State.lease, State.slot, slots])
  | _ => exact hs

/-! ### The quotas of the agents (R24) -/

theorem quotaLaw_of_holders {s t : State} (h : ∀ a i, (t.lease i).any (fun l => l.holder == a) = true →
    (s.lease i).any (fun l => l.holder == a) = true) (hs : quotaLaw s) : quotaLaw t := fun a =>
  (List.monotone_filter_right allSlots (h a)).length_le.trans (hs a)

/-- R24: a creation adds one slot to those of an agent that has room. -/
theorem quotaLaw_placeLease {s : State} {i : SlotId} {l : Lease} (room : (s.slotsOf l.holder).length < Config.quota)
    (hs : quotaLaw s) : quotaLaw (placeLease i l s) := by
  intro a
  have counts := length_filter_split (· == i) fun j => ((placeLease i l s).lease j).any fun l => l.holder == a
  have one : (allSlots.filter fun j => (j == i) && ((placeLease i l s).lease j).any fun l => l.holder == a).length ≤
      if l.holder = a then 1 else 0 := by
    have single : (allSlots.filter (· == i)).length = 1 := by clear counts room; revert i; decide
    split
    · rw [← single]
      exact (List.monotone_filter_right allSlots fun j both => (Bool.and_eq_true _ _ ▸ both).1).length_le
    · rename_i other
      refine Nat.le_of_eq (List.length_eq_zero_iff.2 (List.filter_eq_nil_iff.2 fun j _ => ?_))
      by_cases here : j = i
      · subst here; simp [lease_placeLease, other]
      · simp [here]
  have rest : (allSlots.filter fun j => (((placeLease i l s).lease j).any fun l => l.holder == a) && !(j == i)).length ≤
      (s.slotsOf a).length := by
    refine (List.monotone_filter_right allSlots fun j both => ?_).length_le
    obtain ⟨holds, other⟩ := Bool.and_eq_true _ _ ▸ both
    rwa [lease_placeLease, if_neg (by simpa using other)] at holds
  have before := hs a
  change (allSlots.filter fun j => ((placeLease i l s).lease j).any fun l => l.holder == a).length ≤ Config.quota
  split at one
  · rename_i same
    rw [same] at room
    omega
  · omega

theorem quotaLaw_withEnded (order : List SlotId) (cause : SlotId → EndCause) (s : State) (hs : quotaLaw s) :
    quotaLaw (withEnded order cause s) :=
  quotaLaw_of_holders (fun a i h => by rwa [holder_withEnded] at h) hs

theorem quotaLaw_deed {b : Bool} {s t : State} (h : Deed b s t) (hs : quotaLaw s) : quotaLaw t := by
  cases h with
  | outside h => obtain ⟨_, _, _, _, _, _, _, _, _, rfl⟩ := h; exact hs
  | @rewrite _ _ i l l' h rewrites =>
    refine quotaLaw_of_holders (fun a j holds => ?_) hs
    rw [lease_setLease] at holds
    split at holds
    · subst j; simpa [h, rewrites.holder] using holds
    · exact holds
  | settle =>
    refine quotaLaw_of_holders (fun a i holds => ?_) hs
    rw [lease_settleMarks] at holds
    cases h : s.lease i <;> simp_all
  | ended i cause => exact endLease_keeps quotaLaw_withEnded i cause s hs
  | freed i =>
    rw [freeSlot_eq]
    refine quotaLaw_of_holders (fun a j holds => ?_) hs
    rw [any_withFreed, Bool.and_eq_true] at holds
    exact holds.1
  | made makes => exact quotaLaw_placeLease makes.room hs
  | move h => obtain ⟨_, _, _, _, _, rfl⟩ := h.side; exact hs
  | fault =>
    refine faultEvent_keeps (fun {s t} slots _ _ => quotaLaw_of_holders fun a i holds => ?_) quotaLaw_withEnded _ _ hs
    simpa [State.lease, State.slot, slots] using holds
  | _ => exact hs

/-! ### The links of the lines (R112) -/

/-- A link that stays names a lease as before, where the line's agent and template stay. -/
theorem linkLaw_of_same {s t : State} (links : ∀ k, ∀ h ∈ (t.wake k).link, h ∈ (s.wake k).link)
    (records : ∀ k, (t.wake k).agent = (s.wake k).agent ∧ (t.wake k).template = (s.wake k).template)
    (named : ∀ k, ∀ h ∈ (t.wake k).link, t.named h = s.named h) (hs : linkLaw s) : linkLaw t := by
  intro k h link
  have names := hs k h (links k h link)
  unfold State.linkNames at names ⊢
  rw [(records k).1, (records k).2, named k h link]
  exact names

theorem linkLaw_of_leaseSide {s t : State} (side : leaseSide s t) (links : ∀ k, ∀ h ∈ (t.wake k).link, h ∈ (s.wake k).link)
    (named : ∀ k, ∀ h ∈ (t.wake k).link, t.named h = s.named h) (hs : linkLaw s) : linkLaw t :=
  linkLaw_of_same links (fun k => ⟨by rw [side.2 k], side.template k⟩) named hs

/-- Where a slot stays, a handle of it names what it named. -/
theorem named_of_slot {s t : State} {h : Handle} (slot : t.slot h.slot = s.slot h.slot) : t.named h = s.named h := by
  unfold State.named
  rw [slot, lease_eq_of_slot slot]

/-- R112: what a link names is a live lease of its slot, and the link is that slot's handle. -/
theorem live_handle_of_linkNames {s : State} {k : LineId} {h : Handle} (names : s.linkNames k h = true) :
    s.liveAt h.slot = true ∧ s.handle h.slot = h := by
  unfold State.linkNames at names
  obtain ⟨l, named, tells⟩ := (Option.any_eq_true _ _).1 names
  have lease := lease_of_named named
  have generation : (s.slot h.slot).generation = h.generation := by
    by_contra stale
    simp [State.named, stale] at named
  refine ⟨?_, by rw [State.handle, generation]⟩
  simp only [State.liveAt, lease]
  simp only [Bool.and_eq_true] at tells
  tauto

/-- R36, R39: with its slot a link is cleared, so one that stays names a slot that stays. -/
theorem linkLaw_of_leave {s t : State} (gone : SlotId → Bool) (side : leaseSide s t)
    (links : ∀ k, (t.wake k).link =
      (s.wake k).link.filter fun h => !(gone h.slot && s.liveAt h.slot && s.handle h.slot == h))
    (slots : ∀ i, gone i = false → t.slot i = s.slot i) (hs : linkLaw s) : linkLaw t := by
  have stays : ∀ k, ∀ h ∈ (t.wake k).link, h ∈ (s.wake k).link ∧ gone h.slot = false := by
    intro k h link
    rw [links] at link
    obtain ⟨linked, kept⟩ := Option.filter_eq_some_iff.1 link
    obtain ⟨live, handle⟩ := live_handle_of_linkNames (hs k h linked)
    exact ⟨linked, by simpa [live, handle] using kept⟩
  exact linkLaw_of_leaseSide side (fun k h link => (stays k h link).1)
    (fun k h link => named_of_slot (slots h.slot (stays k h link).2)) hs

theorem linkLaw_withEnded (order : List SlotId) (cause : SlotId → EndCause) (s : State) (hs : linkLaw s) :
    linkLaw (withEnded order cause s) :=
  linkLaw_of_leave order.contains (leaseSide_withEnded order cause s) (link_withEnded order cause s)
    (fun i kept => by rw [slot_withEnded, kept]; rfl) hs

theorem linkLaw_withFreed (gone : SlotId → Bool) (s : State) (hs : linkLaw s) : linkLaw (withFreed gone s) :=
  linkLaw_of_leave gone (leaseSide_withFreed gone s) (link_withFreed gone s)
    (fun i kept => by rw [slot_withFreed, kept]; rfl) hs

/-- A lease that is rewritten stays what a link names. -/
theorem linkLaw_of_rewrites {s t : State} (wakes : t.wake = s.wake)
    (named : ∀ h, t.named h = s.named h ∨ ∃ l l', s.named h = some l ∧ t.named h = some l' ∧ l'.live = l.live ∧
      l'.holder = l.holder ∧ l'.domain = l.domain ∧ l'.origin = l.origin ∧ l'.tag = l.tag ∧ l'.term.code = l.term.code)
    (hs : linkLaw s) : linkLaw t := by
  intro k h link
  rw [wakes] at link
  have names := hs k h link
  unfold State.linkNames at names ⊢
  rw [wakes]
  rcases named h with eq | ⟨l, l', hl, hl', live, holder, domain, origin, tag, code⟩
  · rw [eq]; exact names
  · rw [hl'] at *
    rw [hl] at names
    simpa [live, holder, domain, origin, tag, code] using names

theorem linkLaw_rewrite {s : State} {i : SlotId} {l l' : Lease} (h : s.lease i = some l) (rewrites : Rewrites s l l')
    (hs : linkLaw s) : linkLaw (s.setLease i l') := by
  refine linkLaw_of_rewrites (s := s) rfl (fun g => ?_) hs
  rw [named_setLease h]
  by_cases here : g.slot = i
  · cases named : s.named g with
    | none => simp
    | some k =>
      cases h.symm.trans (here ▸ lease_of_named named)
      exact .inr ⟨l, l', rfl, by rw [if_pos here]; rfl, rewrites.live, rewrites.holder, rewrites.domain, rewrites.origin,
        rewrites.tag, rewrites.code⟩
  · simp [here]

theorem named_settleMarks (s : State) (h : Handle) :
    (settleMarks s).named h = (s.named h).map fun l => { l with state := l.state.settle } := by
  have generation : ((settleMarks s).slot h.slot).generation = (s.slot h.slot).generation := by
    simp [settleMarks, State.slot]
  unfold State.named
  rw [generation, lease_settleMarks]
  split <;> rfl

theorem linkLaw_settleMarks {s : State} (hs : linkLaw s) : linkLaw (settleMarks s) := by
  have wakes : (settleMarks s).wake = s.wake := by funext k; simp only [settleMarks, State.wake]
  refine linkLaw_of_rewrites wakes (fun h => ?_) hs
  rw [named_settleMarks]
  cases s.named h with
  | none => exact .inl rfl
  | some l => exact .inr ⟨l, _, rfl, rfl, live_settle l, rfl, rfl, rfl, rfl, rfl⟩

/-- No link names a FREE slot, so a new lease is named by none that stood before it. -/
theorem linkLaw_placeLease {s : State} {i : SlotId} (free : s.lease i = none) (l : Lease) (hs : linkLaw s) :
    linkLaw (placeLease i l s) := by
  refine linkLaw_of_leaseSide (leaseSide_placeLease i l s) (fun k h link => by rwa [wake_placeLease] at link)
    (fun k h link => named_of_slot ?_) hs
  rw [wake_placeLease] at link
  have other : h.slot ≠ i := by
    rintro here
    have live := (live_handle_of_linkNames (hs k h link)).1
    simp [State.liveAt, here, free] at live
  rw [placeLease_eq_withNewLease]
  exact slot_setSlot_ne s other _

/-- A line is written: its new link, if any, names what a link names. -/
theorem linkLaw_setWake {s : State} {k : LineId} {w : WakeLine} (names : ∀ h ∈ w.link, (s.setWake k w).linkNames k h = true)
    (hs : linkLaw s) : linkLaw (s.setWake k w) := by
  intro j h link
  rw [wake_setWake] at link
  split at link
  · subst j; exact names h link
  · rename_i other
    have stands := hs j h link
    unfold State.linkNames at stands ⊢
    rw [wake_setWake_ne s other]
    exact stands

theorem linkLaw_deed {b : Bool} {s t : State} (h : Deed b s t) (hs : linkLaw s) : linkLaw t := by
  cases h with
  | outside h => obtain ⟨_, _, _, _, _, _, _, _, _, rfl⟩ := h; exact hs
  | line _ _ unlinked => exact linkLaw_setWake (by simp [unlinked]) hs
  | enable => exact linkLaw_setWake (by simp) hs
  | baselines same =>
    refine linkLaw_of_same (s := s) (fun k h link => ?_) (fun k => ?_) (fun _ _ _ => rfl) hs <;>
      obtain ⟨_, eq⟩ := same k
    · exact (congrArg WakeLine.link eq) ▸ link
    · exact ⟨(congrArg WakeLine.agent eq :), (congrArg WakeLine.template eq :)⟩
  | rewrite h rewrites => exact linkLaw_rewrite h rewrites hs
  | settle => exact linkLaw_settleMarks hs
  | ended i cause => exact endLease_keeps linkLaw_withEnded i cause s hs
  | freed i => rw [freeSlot_eq]; exact linkLaw_withFreed _ s hs
  | made makes => exact linkLaw_placeLease makes.free _ hs
  | link names =>
    refine linkLaw_setWake (fun h link => ?_) hs
    cases link
    unfold State.linkNames at names ⊢
    rw [wake_setWake_self]
    exact names
  | move h => obtain ⟨_, _, _, _, _, rfl⟩ := h.side; exact hs
  | fault =>
    refine faultEvent_keeps (fun {s t} slots _ wakes => ?_) linkLaw_withEnded _ _ hs
    have wake : t.wake = s.wake := by funext k; simp [State.wake, wakes]
    exact linkLaw_of_same (fun k h link => by rwa [wake] at link) (fun k => by rw [wake]; exact ⟨rfl, rfl⟩)
      fun k h _ => named_of_slot (by simp [State.slot, slots])
  | _ => exact hs

/-! ### The leases (R19, R33) -/

theorem leaseLaw_of_leases {s t : State} (h : ∀ i, t.lease i = s.lease i ∨ ∀ l' ∈ t.lease i, l'.lawful) (hs : leaseLaw s) :
    leaseLaw t := by
  intro i l' h'
  rcases h i with eq | lawful
  · exact hs i l' (eq ▸ h')
  · exact lawful l' h'

/-- R36: an ended lease is lawful as it was. -/
theorem lawful_ended {l : Lease} (h : l.lawful) (cause : EndCause) : ({ l with state := .ended cause } : Lease).lawful := by
  obtain ⟨up, range, granted, _⟩ := h
  exact ⟨up, range, granted, trivial⟩

theorem leaseLaw_withEnded (order : List SlotId) (cause : SlotId → EndCause) (s : State) (hs : leaseLaw s) :
    leaseLaw (withEnded order cause s) := by
  refine leaseLaw_of_leases (fun i => ?_) hs
  rw [lease_withEnded]
  split
  · refine .inr fun l' h' => ?_
    obtain ⟨l, h, rfl⟩ := Option.map_eq_some_iff.1 h'
    exact lawful_ended (hs i l h) _
  · exact .inl rfl

theorem lawful_settle {l : Lease} (h : l.lawful) : ({ l with state := l.state.settle } : Lease).lawful := by
  obtain ⟨up, range, granted, state⟩ := h
  refine ⟨up, range, granted, ?_⟩
  cases held : l.state with
  | pending => rw [held] at state; exact state
  | ended cause => trivial
  | held countdown =>
    rw [held] at state
    obtain ⟨given, present, counts⟩ := state
    rw [settle_held]
    refine ⟨given, by simpa using present, fun c hc => ?_⟩
    obtain ⟨c', hc', rfl⟩ := Option.map_eq_some_iff.1 hc
    exact counts c' hc'

theorem leaseLaw_deed {b : Bool} {s t : State} (h : Deed b s t) (templates : templateLaw s) (hs : leaseLaw s) :
    leaseLaw t := by
  cases h with
  | outside h => obtain ⟨_, _, _, _, _, _, _, _, _, rfl⟩ := h; exact hs
  | @rewrite _ _ i l l' h rewrites =>
    refine leaseLaw_of_leases (fun j => ?_) hs
    rw [lease_setLease]
    split
    · refine .inr fun k hk => ?_
      cases hk
      exact rewrites.lawful templates (hs i l h)
    · exact .inl rfl
  | settle =>
    intro i l' h'
    rw [lease_settleMarks] at h'
    obtain ⟨l, h, rfl⟩ := Option.map_eq_some_iff.1 h'
    exact lawful_settle (hs i l h)
  | ended i cause => exact endLease_keeps leaseLaw_withEnded i cause s hs
  | freed i =>
    rw [freeSlot_eq]
    refine leaseLaw_of_leases (fun j => ?_) hs
    rw [lease_withFreed]
    split
    · exact .inr (by simp)
    · exact .inl rfl
  | made makes =>
    refine leaseLaw_of_leases (fun j => ?_) hs
    rw [lease_placeLease]
    split
    · refine .inr fun k hk => ?_
      cases hk
      exact makes.lawful templates
    · exact .inl rfl
  | move h => obtain ⟨_, _, _, _, _, rfl⟩ := h.side; exact hs
  | fault =>
    refine faultEvent_keeps (fun {s t} slots _ _ => leaseLaw_of_leases fun i => .inl ?_) leaseLaw_withEnded _ _ hs
    simp [State.lease, State.slot, slots]
  | _ => exact hs

/-! ### The table -/

theorem templateLaw_deed {b : Bool} {s t : State} (h : Deed b s t) : templateLaw s → templateLaw t :=
  h.keeps (fun h hs => by obtain ⟨_, _, _, _, _, _, _, _, _, rfl⟩ := h; exact hs) templateLaw_change

theorem listLaw_deed {b : Bool} {s t : State} (h : Deed b s t) : listLaw s → listLaw t :=
  h.keeps (fun h hs => by obtain ⟨_, _, _, _, _, _, _, _, _, rfl⟩ := h; exact hs) listLaw_change

theorem emptyLaw_deed {b : Bool} {s t : State} (h : Deed b s t) : emptyLaw s → emptyLaw t :=
  h.keeps (fun h hs => by obtain ⟨_, _, _, _, _, _, _, _, _, rfl⟩ := h; exact hs) emptyLaw_change

theorem tableLaw_deed {b : Bool} {s t : State} (h : Deed b s t) (templates : templateLaw s) (hs : tableLaw s) :
    tableLaw t := by
  obtain ⟨lists, empty, users, quota, links, leases⟩ := hs
  exact ⟨listLaw_deed h lists, emptyLaw_deed h empty, usersLaw_deed h users, quotaLaw_deed h quota, linkLaw_deed h links,
    leaseLaw_deed h templates leases⟩

theorem templateLaw_reset : templateLaw State.reset := fun k => by simp [WakeLine.reset]

/-- Settles O55: each deed of a step keeps the table's laws (`tableLaw_deed`), where the templates are in range; a record
written in SETUP bears on none of them. -/
theorem leaseTableLawsAreKept : Obligations.LeaseTableLawsAreKept := by
  intro s t templates table h
  have kept : templateLaw t ∧ tableLaw t :=
    step_keeps_deeds (P := fun s => templateLaw s ∧ tableLaw s)
      (fun deed ⟨templates, table⟩ => ⟨templateLaw_deed deed templates, tableLaw_deed deed templates table⟩)
      (fun _ _ _ hs => hs) ⟨templateLaw_reset, tableLaw_reset⟩ h ⟨templates, table⟩
  exact kept.2

end Sys2Proof.Machine
end

section
/-! A step timer runs exactly in the timed states, and no domain goes above its maximum level, over every deed
(R3, R4, R15, R17, R48, R49). -/

namespace Sys2Proof.Machine

/-! ### What a deed may do to the engines -/

/-- From s to t engines, records and ramp queue are the same. -/
def stillEngines (s t : State) : Prop := t.engine = s.engine ∧ t.record = s.record ∧ t.rampQueue = s.rampQueue

theorem leaseSide.stillEngines {s t : State} (h : leaseSide s t) : Machine.stillEngines s t := ⟨h.engine, h.record, h.rampQueue⟩

/-- The deeds that bear on the engines are moves, fault events and the lowering of the timers. -/
theorem Deed.engines {b : Bool} {s t : State} (h : Deed b s t) : stillEngines s t ∨ (∃ d, Move d s t) ∨
    (∃ d cause, (s.engine d).state.canFail = true ∧ t = faultEvent d cause s) ∨ t = lowerTimers s := by
  cases h with
  | outside h =>
    obtain ⟨_, _, _, _, _, _, _, _, _, rfl⟩ := h
    exact .inl ⟨rfl, rfl, rfl⟩
  | ended i cause => exact .inl (leaseSide_endLease i cause s).stillEngines
  | freed i => exact .inl (leaseSide_freeSlot i s).stillEngines
  | made => exact .inl (leaseSide_placeLease _ _ s).stillEngines
  | settle => exact .inl (leaseSide_settleMarks s).stillEngines
  | move h => exact .inr (.inl ⟨_, h⟩)
  | fault fails => exact .inr (.inr (.inl ⟨_, _, fails, rfl⟩))
  | timers => exact .inr (.inr (.inr rfl))
  | _ => exact .inl ⟨rfl, rfl, rfl⟩

/-! ### Ranges, defined domains and the ramp queue -/

/-- The laws that the timers and the levels rest on. -/
def groundLaw (s : State) : Prop := recordLaw s ∧ definedLaw s ∧ queueLaw s

theorem defined_of_canFail {s : State} (defined : definedLaw s) {d : Managed} (fails : (s.engine d).state.canFail = true) :
    ∃ r, s.record d = some r := by
  refine Option.ne_none_iff_exists'.1 fun undefined => ?_
  rw [defined d undefined] at fails
  cases fails

theorem ne_waitBudget_of_canFail {e : EngineState} (h : e.canFail = true) : e ≠ .waitBudget := by
  rintro rfl
  cases h

/-- R74, R78, R84: the domains that a fault event cuts out of WAIT_BUDGET leave the queue. -/
theorem queueLaw_faultEvent {s : State} (ranges : recordLaw s) {d : Managed} (cause : FaultCause)
    (fails : (s.engine d).state.canFail = true) (hs : queueLaw s) : queueLaw (faultEvent d cause s) := by
  obtain ⟨nodup, mem⟩ := hs
  have queue : (faultEvent d cause s).rampQueue = (cutState d cause s).rampQueue :=
    (leases_after_cut d cause s).side.rampQueue
  rw [rampQueue_cutState ranges] at queue
  refine ⟨queue ▸ nodup.filter _, fun e => ?_⟩
  rw [queue, List.mem_filter, mem, engine_faultEvent]
  by_cases inside : e = d ∨ d ∈ s.ancestors e
  · have fallen := fallen_cutState ranges cause inside
    refine iff_of_false (fun ⟨waits, stays⟩ => ?_) fun waits => by rw [waits] at fallen; cases fallen
    rcases inside with rfl | below
    · exact ne_waitBudget_of_canFail fails waits
    · simp [waits, (below_iff s d e).2 below] at stays
  · push Not at inside
    rw [engine_cutState_outside ranges cause inside.1 inside.2]
    have apart : s.below d e = false := Bool.eq_false_iff.2 fun below => inside.2 ((below_iff s d e).1 below)
    simp [apart]

theorem groundLaw_congr {s t : State} (records : t.record = s.record)
    (engines : ∀ d, (t.engine d).state = (s.engine d).state) (queue : t.rampQueue = s.rampQueue) (hs : groundLaw s) :
    groundLaw t := by
  obtain ⟨ranges, defined, queued⟩ := hs
  refine ⟨by unfold recordLaw; rw [records]; exact ranges, definedLaw_congr records engines defined, ?_⟩
  unfold queueLaw
  simp only [queue, engines]
  exact queued

theorem groundLaw_deed {b : Bool} {s t : State} (h : Deed b s t) (hs : groundLaw s) : groundLaw t := by
  have ⟨ranges, defined, queue⟩ := hs
  rcases h.engines with ⟨engines, records, queued⟩ | ⟨d, move⟩ | ⟨d, cause, fails, rfl⟩ | rfl
  · exact groundLaw_congr records (fun d => by rw [engines]) queued hs
  · exact ⟨recordLaw_change (.move move) ranges, definedLaw_move move queue defined, queueLaw_move move queue⟩
  · exact ⟨recordLaw_change (.fault fails) ranges, definedLaw_faultEvent ranges cause fails defined,
      queueLaw_faultEvent ranges cause fails queue⟩
  · exact groundLaw_congr (record_lowerTimers s) (state_lowerTimers s) (by simp only [lowerTimers]) hs

/-! ### The timer of one engine (R17, R48) -/

/-- R17, R48: what the law of the timers says of one engine. -/
def Engine.clocked (e : Engine) : Prop :=
  e.timer.isSome = e.timed ∧ (∀ n ∈ e.timer, n ≤ 255) ∧ (e.drainComplete = true → e.state = .fault) ∧
    (e.state = .fault → e.cause.isSome = true)

theorem timerLaw_iff (s : State) : timerLaw s ↔ ∀ d, (s.engine d).clocked := Iff.rfl

/-- An engine that leaves a state other than FAULT for another takes that one's timer. -/
theorem Engine.clocked.moved {e : Engine} (h : e.clocked) (before : e.state ≠ .fault) {st : EngineState} {n : Option Nat}
    (after : st ≠ .fault) (timed : n.isSome = Engine.timed { e with state := st, timer := n }) (short : ∀ m ∈ n, m ≤ 255) :
    Engine.clocked { e with state := st, timer := n } := by
  obtain ⟨_, _, open_, _⟩ := h
  exact ⟨timed, short, fun complete => absurd (open_ complete) before, fun fault => absurd fault after⟩

/-- R48: an engine that arrives at a level has no timer. -/
theorem Engine.clocked_level {e : Engine} (h : e.drainComplete = true → e.state = .fault)
    (before : e.state ≠ .fault ∨ e.drainComplete = false) (level : Level) :
    Engine.clocked { e with state := level.engineState, timer := none } := by
  have open_ : e.drainComplete = false := before.elim (fun ne => Bool.eq_false_iff.2 fun complete => ne (h complete)) id
  refine ⟨by cases level <;> rfl, by simp, fun complete => ?_, fun fault => ?_⟩
  · rw [open_] at complete; cases complete
  · cases level <;> cases fault

theorem Reaches.ne_fault {s : State} {d : Managed} {level : Level} (h : Reaches s d level) :
    (s.engine d).state ≠ .fault := by
  cases h <;> simp [*]

theorem ne_fault_of_holdsWeight {e : EngineState} (h : e.holdsWeight = true) : e ≠ .fault := by
  rintro rfl
  cases h

/-- R48, R51: a move sets the timer of the state that it leads to. -/
theorem Move.clocked {d : Managed} {s t : State} (h : Move d s t) (ground : groundLaw s) (hs : (s.engine d).clocked) :
    (t.engine d).clocked := by
  obtain ⟨ranges, defined, queue⟩ := ground
  have range : ∀ {r}, s.record d = some r → r.inRange d := fun record => ranges d _ record
  have ⟨_, _, open_, known⟩ := hs
  cases h with
  | log => exact hs
  | rise _ at_ => rw [engine_moveEngine_self]; exact hs.moved (by simp [at_]) (by decide) rfl (by simp)
  | queue at_ => rw [engine_enterQueue_self]; exact hs.moved (by simp [at_]) (by decide) rfl (by simp)
  | grant head _ =>
    obtain ⟨waits, r, record⟩ := waits_and_record_of_queued queue defined (by rw [head]; exact List.mem_cons_self)
    obtain ⟨_, _, _, _, _, _, timeout, _⟩ := range record
    rw [engine_moveEngine_self, record]
    exact hs.moved (by simp [waits]) (by decide) rfl (by simpa using timeout)
  | settle record at_ _ =>
    obtain ⟨_, _, _, _, _, _, _, settle, _⟩ := range record
    rw [engine_moveEngine_self]
    exact hs.moved (by simp [at_]) (by decide) rfl (by simpa using settle)
  | settled at_ =>
    rw [engine_arrived_self]
    exact Engine.clocked_level open_ (.inl (ne_fault_of_holdsWeight at_)) .retain
  | clockUp record at_ _ has =>
    obtain ⟨_, _, _, _, _, _, _, _, _, clock, _⟩ := range record
    rw [engine_moveEngine_self]
    exact hs.moved (by simp [at_]) (by decide) rfl (by simpa using (clock _ has).2)
  | boostUp record at_ _ has =>
    obtain ⟨_, _, _, _, _, _, _, _, _, _, _, boost, _⟩ := range record
    rw [engine_moveEngine_self]
    exact hs.moved (by simp [at_]) (by decide) rfl (by simpa using boost _ has)
  | boostDown record at_ _ has =>
    obtain ⟨_, _, _, _, _, _, _, _, _, _, _, boost, _⟩ := range record
    rw [engine_moveEngine_self]
    exact hs.moved (by simp [at_]) (by decide) rfl (by simpa using boost _ has)
  | drain record at_ _ =>
    obtain ⟨_, _, _, _, _, _, _, _, _, _, _, _, _, drain⟩ := range record
    rw [engine_moveEngine_self]
    exact hs.moved (by simp [at_]) (by decide) rfl (by simpa using drain)
  | @reach level reaches =>
    rw [engine_arrived_self]
    exact Engine.clocked_level open_ (.inl reaches.ne_fault) level
  | withdraw at_ =>
    rw [engine_arrived_self]
    exact Engine.clocked_level open_ (.inl fun fault => absurd (at_.symm.trans fault) (by decide)) .off
  | complete at_ =>
    unfold completeDrain
    rw [engine_setEngine_self]
    exact ⟨by simp [Engine.timed, at_], by simp, fun _ => at_, known⟩
  | clear at_ _ =>
    rw [engine_arrived_self, engine_setEngine_self]
    exact Engine.clocked_level (by simp) (.inr rfl) .off

/-- R51: a tick lowers a timer. -/
theorem Engine.clocked_lowered {e : Engine} (h : e.clocked) :
    Engine.clocked { e with timer := e.timer.map fun n => n - 1 } := by
  obtain ⟨timed, short, complete, cause⟩ := h
  refine ⟨?_, fun n hn => ?_, complete, cause⟩
  · rw [Option.isSome_map]; exact timed
  · obtain ⟨m, hm, rfl⟩ := Option.map_eq_some_iff.1 hn
    exact (Nat.sub_le m 1).trans (short m hm)

/-- R84: a cut engine drains with its record's time, or stands as it was, or is OFF. -/
theorem Engine.clocked_cut {e : Engine} (h : e.clocked) {r : DomainRecord} (drain : r.drain ≤ 255) :
    (e.cut (some r.drain)).clocked := by
  have ⟨_, _, open_, _⟩ := h
  unfold Engine.cut
  split
  case h_2 at_ => exact Engine.clocked_level open_ (.inl (by simp [at_])) .off
  case h_3 at_ => exact Engine.clocked_level open_ (.inl (by simp [at_])) .off
  case h_6 other => exact h.moved other (by decide) rfl (by simpa using drain)
  all_goals exact h

theorem timerLaw_faultEvent {s : State} (ground : groundLaw s) {d : Managed} (cause : FaultCause)
    (fails : (s.engine d).state.canFail = true) (hs : timerLaw s) : timerLaw (faultEvent d cause s) := by
  obtain ⟨ranges, defined, _⟩ := ground
  refine (timerLaw_iff _).2 fun e => ?_
  rw [engine_faultEvent]
  by_cases same : e = d
  · subst e
    obtain ⟨r, record⟩ := defined_of_canFail defined fails
    obtain ⟨_, _, _, _, _, _, _, _, _, _, _, _, _, drain⟩ := ranges d r record
    rw [engine_cutState_self ranges record]
    exact ⟨rfl, by simpa using drain, by simp, fun _ => rfl⟩
  · rw [engine_cutState_other ranges same]
    split
    · cases record : s.record e with
      | none =>
        have off := defined e record
        rw [cut_of_fallen (by rw [off]; rfl)]
        exact hs e
      | some r =>
        obtain ⟨_, _, _, _, _, _, _, _, _, _, _, _, _, drain⟩ := ranges e r record
        exact Engine.clocked_cut (hs e) drain
    · exact hs e

theorem timerLaw_deed {b : Bool} {s t : State} (h : Deed b s t) (ground : groundLaw s) (hs : timerLaw s) :
    timerLaw t := by
  rcases h.engines with ⟨engines, _, _⟩ | ⟨d, move⟩ | ⟨d, cause, fails, rfl⟩ | rfl
  · unfold timerLaw
    rw [engines]
    exact hs
  · refine (timerLaw_iff t).2 fun e => ?_
    by_cases same : e = d
    · subst e; exact move.clocked ground (hs d)
    · rw [move.turns.others e same]; exact hs e
  · exact timerLaw_faultEvent ground cause fails hs
  · refine (timerLaw_iff _).2 fun d => ?_
    rw [engine_lowerTimers]
    exact Engine.clocked_lowered (hs d)

/-! ### The maximum levels (R3, R15) -/

theorem needs_of_fallen {e : EngineState} (h : e.fallen = true) : e.needs = .off := by
  revert h
  cases e <;> decide

/-- R3, R4: a record in range whose maximum level is BOOST, or above RETAIN, by the times that it has. -/
theorem boost_of_boostSettle {d : Managed} {r : DomainRecord} (range : r.inRange d) {n : Nat}
    (has : r.boostSettle = some n) : r.maxLevel = .boost := by
  obtain ⟨_, _, _, _, _, _, _, _, _, _, boost, _⟩ := range
  exact boost.1 (by rw [has]; rfl)

theorem retain_lt_of_clockTimeout {d : Managed} {r : DomainRecord} (range : r.inRange d) {n : Nat}
    (has : r.clockTimeout = some n) : Level.retain.num < r.maxLevel.num := by
  obtain ⟨_, _, _, _, _, _, _, _, clock, _⟩ := range
  exact clock.1 (by rw [has]; rfl)

theorem retain_le_maxLevel {d : Managed} {r : DomainRecord} (range : r.inRange d) : Level.retain.num ≤ r.maxLevel.num := by
  obtain ⟨_, _, up, _⟩ := range
  exact ne_off_iff.1 up

/-- R15, R59, R60: an arrival is within the maximum level if the state before it was. -/
theorem Reaches.within {s : State} {d : Managed} {level : Level} (h : Reaches s d level) {r : DomainRecord}
    (record : s.record d = some r) (range : r.inRange d) (hs : (s.engine d).state.needs.num ≤ r.maxLevel.num) :
    level.num ≤ r.maxLevel.num := by
  cases h with
  | clock _ sampled => 
    have above : Level.retain.num < r.maxLevel.num := by simpa [State.ckokSampled, record] using sampled
    exact above
  | boostAtOnce record' _ _ settle =>
    cases record.symm.trans record'
    rw [boost_of_boostSettle range settle]
  | boost at_ => rw [at_] at hs; exact hs
  | runAtOnce _ at_ => rw [at_] at hs; exact (by decide : Level.run.num ≤ Level.boost.num).trans hs
  | run at_ => rw [at_] at hs; exact (by decide : Level.run.num ≤ Level.boost.num).trans hs
  | retain => exact retain_le_maxLevel range
  | drained => exact Nat.zero_le _
  | stopWaiting => exact Nat.zero_le _

theorem needs_engineState (level : Level) : level.engineState.needs = level := by cases level <;> rfl

/-- R3, R15: a move leads to no state above the maximum level. -/
theorem Move.within {d : Managed} {s t : State} (h : Move d s t) {r : DomainRecord} (record : s.record d = some r)
    (range : r.inRange d) (hs : (s.engine d).state.needs.num ≤ r.maxLevel.num) :
    (t.engine d).state.needs.num ≤ r.maxLevel.num := by
  cases h with
  | log => exact hs
  | rise => rw [engine_moveEngine_self]; exact Nat.zero_le _
  | queue => rw [engine_enterQueue_self]; exact Nat.zero_le _
  | grant => rw [engine_moveEngine_self]; exact retain_le_maxLevel range
  | settle => rw [engine_moveEngine_self]; exact retain_le_maxLevel range
  | settled => rw [engine_arrived_self]; exact retain_le_maxLevel range
  | clockUp record' _ _ has =>
    cases record.symm.trans record'
    rw [engine_moveEngine_self]
    exact retain_lt_of_clockTimeout range has
  | boostUp record' _ _ has =>
    cases record.symm.trans record'
    rw [engine_moveEngine_self, boost_of_boostSettle range has]
    exact Nat.le_refl _
  | boostDown record' _ _ has =>
    cases record.symm.trans record'
    rw [engine_moveEngine_self, boost_of_boostSettle range has]
    exact Nat.le_refl _
  | drain => rw [engine_moveEngine_self]; exact Nat.zero_le _
  | reach reaches => rw [engine_arrived_self, needs_engineState]; exact reaches.within record range hs
  | withdraw => rw [engine_arrived_self]; exact Nat.zero_le _
  | complete => unfold completeDrain; rw [engine_setEngine_self]; exact hs
  | clear => rw [engine_arrived_self]; exact Nat.zero_le _

theorem levelLaw_congr {s t : State} (records : t.record = s.record)
    (engines : ∀ d, (t.engine d).state = (s.engine d).state) (hs : levelLaw s) : levelLaw t := by
  unfold levelLaw
  simp only [records, engines]
  exact hs

theorem levelLaw_deed {b : Bool} {s t : State} (h : Deed b s t) (ranges : recordLaw s) (hs : levelLaw s) : levelLaw t := by
  rcases h.engines with ⟨engines, records, _⟩ | ⟨d, move⟩ | ⟨d, cause, _, rfl⟩ | rfl
  · exact levelLaw_congr records (fun d => by rw [engines]) hs
  · intro e r record
    rw [move.turns.records] at record
    by_cases same : e = d
    · subst e; exact move.within record (ranges d r record) (hs d r record)
    · rw [move.turns.others e same]; exact hs e r record
  · intro e r record
    rw [record_faultEvent] at record
    rw [engine_faultEvent]
    by_cases inside : e = d ∨ d ∈ s.ancestors e
    · rw [needs_of_fallen (fallen_cutState ranges cause inside)]; exact Nat.zero_le _
    · push Not at inside
      rw [engine_cutState_outside ranges cause inside.1 inside.2]
      exact hs e r record
  · exact levelLaw_congr (record_lowerTimers s) (state_lowerTimers s) hs

/-- R172: in SETUP every domain is down, so no record that is written is below a level that a domain stands at. -/
theorem levelLaw_of_down {s : State} (down : s.allDown = true) : levelLaw s := by
  intro d r _
  rw [needs_of_fallen (fallen_of_down ((allDown_iff s).1 down d))]
  exact Nat.zero_le _

/-! ### The step -/

/-- What the timers and the levels of t owe to those of s. -/
def owesTimers (s t : State) : Prop := groundLaw t ∧ (timerLaw s → timerLaw t) ∧ (levelLaw s → levelLaw t)

theorem owesTimers_deed {b : Bool} {s t u : State} (h : Deed b t u) (owes : owesTimers s t) : owesTimers s u := by
  obtain ⟨ground, timers, levels⟩ := owes
  exact ⟨groundLaw_deed h ground, fun hs => timerLaw_deed h ground (timers hs),
    fun hs => levelLaw_deed h ground.1 (levels hs)⟩

/-- Settles O57: each deed of a step keeps the timers (`timerLaw_deed`) and the levels (`levelLaw_deed`); DEFINE_DOMAIN
writes its record in SETUP, where every domain is down. -/
theorem timersAndLevelsAreKept : Obligations.TimersAndLevelsAreKept := by
  intro s t ranges defined quiet queue h
  obtain ⟨u, taken, result⟩ := result_step h
  have start : owesTimers s u :=
    owesTimers_deed (b := false) (.outside taken) ⟨⟨ranges, defined, queue⟩, id, id⟩
  rcases result with rfl | result
  · obtain ⟨_, _, _, _, _, _, _, _, _, same⟩ := outside_resetPart u
    rw [same]
    exact ⟨fun _ => timerLaw_reset, fun _ => levelLaw_reset⟩
  · cases result with
    | making h => exact (h.keeps owesTimers_deed start).2
    | freeing h => exact (h.keeps owesTimers_deed start).2
    | defining setup _ _ written =>
      obtain ⟨_, _, _, _, _, _, _, _, _, rfl⟩ := taken
      obtain ⟨_, _, _, _, _, _, _, _, _, rfl⟩ := written
      exact ⟨fun timers => timers, fun _ => levelLaw_of_down (quiet setup)⟩

end Sys2Proof.Machine
end

section
/-! A granted level stays assured: a domain steps down no lower than its target, which no live lease's granted level is
above, and a domain that falls under a fault has no live lease left (R10, R14, R33, R38, R53, R66). -/

namespace Sys2Proof.Machine

/-! ### Where the leases stand -/

/-- From s to t every live lease stood as it stands. -/
def livesOn (s t : State) : Prop := ∀ i l, t.lease i = some l → l.live = true → s.lease i = some l

theorem livesOn_of_slots {s t : State} (h : t.slots = s.slots) : livesOn s t := by
  intro i l lease _
  rwa [State.lease, State.slot, h] at lease

theorem livesOn_withEnded (order : List SlotId) (cause : SlotId → EndCause) (s : State) :
    livesOn s (withEnded order cause s) := by
  intro i l lease live
  rw [lease_withEnded] at lease
  split at lease
  · obtain ⟨_, _, rfl⟩ := Option.map_eq_some_iff.1 lease
    cases live
  · exact lease

theorem livesOn_endLease (i : SlotId) (cause : EndCause) (s : State) : livesOn s (endLease i cause s) := by
  rcases endLease_cases i cause s with eq | eq <;> rw [eq]
  · exact livesOn_of_slots rfl
  · exact livesOn_withEnded _ _ s

theorem livesOn_faultEvent (d : Managed) (cause : FaultCause) (s : State) : livesOn s (faultEvent d cause s) := by
  refine faultEvent_relation livesOn (fun _ => livesOn_of_slots rfl)
    (fun _ _ _ h k i l lease live => h i l (k i l lease live) live) (fun s t h => ?_) livesOn_endLease
    (fun _ _ _ => livesOn_of_slots rfl) d cause s
  obtain ⟨_, _, _, _, rfl⟩ := h
  exact livesOn_of_slots rfl

/-- R25: a live lease is on its domain's list. -/
theorem mem_list_of_live {s : State} (lists : listLaw s) {i : SlotId} {l : Lease} (h : s.lease i = some l)
    (live : l.live = true) : i ∈ s.list l.domain :=
  ((lists l.domain).2 i).2 (by simp [State.liveOn, h, live])

/-- R14: a live lease wants no more than the target of a domain under no fault. -/
theorem wanted_le_target {s : State} (lists : listLaw s) {i : SlotId} {l : Lease} (h : s.lease i = some l)
    (live : l.live = true) (sound : s.faultAtOrAbove l.domain = false) : l.wanted.num ≤ (s.target l.domain).num := by
  rw [target_eq, if_neg (by simp [sound])]
  exact le_greatest (List.mem_append_left _ (List.mem_filterMap.2 ⟨i, mem_list_of_live lists h live, by simp [h]⟩))

/-! ### Over every deed -/

/-- The laws that the granted levels rest on. -/
def assuranceLaw (s : State) : Prop := subtreeLaw s ∧ templateLaw s ∧ tableLaw s ∧ grantedLaw s

theorem grantedLaw_of_livesOn {s t : State} (h : livesOn s t)
    (assured : ∀ i l, t.lease i = some l → l.live = true → s.assuredOf l.domain = t.assuredOf l.domain)
    (hs : grantedLaw s) : grantedLaw t := by
  intro i l lease live
  rw [← assured i l lease live]
  exact hs i l (h i l lease live) live

theorem assuredOf_of_still {s t : State} (h : stillEngines s t) (d : Managed) : s.assuredOf d = t.assuredOf d := by
  unfold State.assuredOf
  rw [h.1]

/-- R33, R53: a domain that steps down stays at or above what its leases are granted. -/
theorem grantedLaw_move {d : Managed} {s t : State} (h : Move d s t) (laws : assuranceLaw s) : grantedLaw t := by
  obtain ⟨⟨_, lists, _, _, _, ⟨_, queue⟩, faults, _⟩, _, ⟨_, _, _, _, _, lawful⟩, granted⟩ := laws
  intro i l lease live
  have before : s.lease i = some l := by obtain ⟨_, _, _, _, _, rfl⟩ := h.side; exact lease
  have stood := granted i l before live
  unfold State.assuredOf at stood ⊢
  by_cases same : l.domain = d
  · subst d
    rcases h.assured queue with up | ⟨standing, _, above⟩
    · exact stood.trans up
    · have sound : s.faultAtOrAbove l.domain = false := by
        rw [Bool.eq_false_iff]
        intro faulted
        rw [(faults _ faulted).2] at standing
        cases standing
      obtain ⟨_, _, below, _⟩ := lawful i l before
      exact (below.trans (wanted_le_target lists before live sound)).trans above
  · rw [h.turns.others _ same]; exact stood

/-- R38, R91: a live lease that a fault event leaves is on a domain outside the failing subtree. -/
theorem grantedLaw_faultEvent {s : State} (ranges : recordLaw s) (lists : listLaw s) (d : Managed) (cause : FaultCause)
    (hs : grantedLaw s) : grantedLaw (faultEvent d cause s) := by
  refine grantedLaw_of_livesOn (livesOn_faultEvent d cause s) (fun i l lease live => ?_) hs
  have ended : listLaw (faultEvent d cause s) := by
    obtain ⟨_, ⟨_, _, _, _, rfl⟩, leases⟩ := faultEvent_sides d cause s
    exact leases.law lists
  have apart : ¬ (l.domain = d ∨ d ∈ s.ancestors l.domain) := fun inside => by
    have mem := mem_list_of_live ended lease live
    rw [list_faultEvent lists cause inside] at mem
    cases mem
  push Not at apart
  unfold State.assuredOf
  rw [engine_faultEvent, engine_cutState_outside ranges cause apart.1 apart.2]

/-- R32 to R35: a level newly granted is assured. -/
theorem grantedLaw_rewrite {s : State} {i : SlotId} {l l' : Lease} (h : s.lease i = some l) (rewrites : Rewrites s l l')
    (lists : listLaw s) (hs : grantedLaw s) : grantedLaw (s.setLease i l') := by
  intro j k lease live
  rw [lease_setLease] at lease
  split at lease
  · cases lease
    change grantedNum l'.granted ≤ (s.assuredOf l'.domain).num
    rw [rewrites.domain]
    rcases rewrites.granted with lower | met
    · exact lower.trans (hs i l h (rewrites.live ▸ live))
    · exact met lists
  · exact hs j k lease live

theorem grantedLaw_deed {b : Bool} {s t : State} (h : Deed b s t) (laws : assuranceLaw s) : grantedLaw t := by
  have ⟨⟨ranges, lists, _⟩, _, _, granted⟩ := laws
  cases h with
  | outside h => obtain ⟨_, _, _, _, _, _, _, _, _, rfl⟩ := h; exact granted
  | rewrite h rewrites => exact grantedLaw_rewrite h rewrites lists granted
  | settle =>
    intro i l' h' live
    rw [lease_settleMarks] at h'
    obtain ⟨l, h, rfl⟩ := Option.map_eq_some_iff.1 h'
    rw [live_settle] at live
    rw [← assuredOf_of_still (leaseSide_settleMarks s).stillEngines]
    exact granted i l h live
  | ended i cause =>
    exact grantedLaw_of_livesOn (livesOn_endLease i cause s)
      (fun _ _ _ _ => assuredOf_of_still (leaseSide_endLease i cause s).stillEngines _) granted
  | freed i =>
    refine grantedLaw_of_livesOn (fun j l lease _ => ?_)
      (fun _ _ _ _ => assuredOf_of_still (leaseSide_freeSlot i s).stillEngines _) granted
    rw [freeSlot_eq, lease_withFreed] at lease
    split at lease
    · cases lease
    · exact lease
  | @made _ i l makes =>
    intro j k lease live
    rw [← assuredOf_of_still (leaseSide_placeLease i l s).stillEngines]
    rw [lease_placeLease] at lease
    split at lease
    · cases lease; exact makes.granted
    · exact granted j k lease live
  | move h => exact grantedLaw_move h laws
  | fault => exact grantedLaw_faultEvent ranges lists _ _ granted
  | timers =>
    intro i l lease live
    unfold State.assuredOf
    rw [state_lowerTimers]
    exact granted i l lease live
  | _ => exact granted

theorem assuranceLaw_deed {b : Bool} {s t : State} (h : Deed b s t) (laws : assuranceLaw s) : assuranceLaw t := by
  have granted := grantedLaw_deed h laws
  obtain ⟨subtrees, templates, table, _⟩ := laws
  exact ⟨h.keeps subtreeLaw_outside subtreeLaw_change subtrees, templateLaw_deed h templates,
    tableLaw_deed h templates table, granted⟩

/-- R43, R167: in SETUP no lease stands on the domain whose record is written. -/
theorem assuranceLaw_setRecord {s : State} {d : Managed} {r : Option DomainRecord} (setup : s.partState = .setup)
    (sound : (s.engine d).state ≠ .fault) (inRange : ∀ x ∈ r, x.inRange d) (laws : assuranceLaw s) :
    assuranceLaw (s.setRecord d r) := by
  obtain ⟨subtrees, templates, table, granted⟩ := laws
  exact ⟨subtreeLaw_change (.record setup sound inRange) subtrees, templates, table, granted⟩

theorem assuranceLaw_reset : assuranceLaw State.reset := by
  obtain ⟨ranges, templates, _⟩ := configurationLaw_reset
  have ⟨lists, empty, _⟩ := tableLaw_reset
  obtain ⟨defined, _, _, quiet, _, ramp, faults, floors⟩ := engineLaw_reset
  exact ⟨⟨ranges, lists, empty, defined, quiet, ramp, faults, floors⟩, templates, tableLaw_reset, fun i => by simp⟩

/-- Settles O59: each deed of a step keeps the granted levels assured (`grantedLaw_deed`), among the laws of the engines,
the table and the templates. -/
theorem grantedLevelsStayAssured : Obligations.GrantedLevelsStayAssured := by
  intro s t configuration table engines granted h
  obtain ⟨ranges, templates, _⟩ := configuration
  have ⟨lists, empty, _⟩ := table
  obtain ⟨defined, _, _, quiet, _, ramp, faults, floors⟩ := engines
  have start : assuranceLaw s := ⟨⟨ranges, lists, empty, defined, quiet, ramp, faults, floors⟩, templates, table, granted⟩
  obtain ⟨_, _, _, kept⟩ := step_keeps_deeds assuranceLaw_deed assuranceLaw_setRecord assuranceLaw_reset h start
  exact kept

end Sys2Proof.Machine
end

section
/-! The refusals of RENEW, MODIFY, RELEASE and REVOKE: the range pass, then the level, then the handle and its holder, then
the state of the lease (R22, R145, R156, R158, R160, R184). -/

namespace Sys2Proof.Machine

section
variable {s : State} {p : Agent} {h : Handle} {l : Lease} {level : Level} {st : Status} {cause : EndCause}

/-! ### The handle and its holder -/

theorem ownLease_stale (stale : s.named h = none) : ownLease s p h = .error .staleHandle := by
  simp only [ownLease, stale]

theorem ownLease_other (named : s.named h = some l) (other : l.holder ≠ p) : ownLease s p h = .error .notHolder := by
  simp only [ownLease, named, if_neg other]

/-- R158: a level above OFF that no domain named by the handle disallows. -/
theorem modifyBadLevel_of_allowed (up : level ≠ .off)
    (allowed : ∀ l, s.named h = some l → ∀ r ∈ s.record l.domain, level.num ≤ r.maxLevel.num) :
    modifyBadLevel s h level = false := by
  unfold modifyBadLevel
  rw [beq_eq_false_iff_ne.2 up, Bool.false_or]
  split
  · rfl
  · rename_i l named
    split
    · rename_i r record
      exact decide_eq_false (Nat.not_lt.2 (allowed l named r record))
    · rfl

/-- R158: a level above the maximum level of the domain. -/
theorem modifyBadLevel_of_above {r : DomainRecord} (named : s.named h = some l) (record : s.record l.domain = some r)
    (above : r.maxLevel.num < level.num) : modifyBadLevel s h level = true := by
  simp [modifyBadLevel, named, record, above]

/-! ### What the owners answer -/

theorem doRenew_error (own : ownLease s p h = .error st) (rest : List Byte) :
    doRenew p (byteOf h.slot.val :: h.generation :: rest) s = refuse st s := by
  simp only [doRenew, decodeHandle_bytes, own]

theorem doRenew_ended (own : ownLease s p h = .ok l) (ended : l.state = .ended cause) (rest : List Byte) :
    doRenew p (byteOf h.slot.val :: h.generation :: rest) s = refuseWith .leaseEnded [cause.code] s := by
  simp only [doRenew, decodeHandle_bytes, own, ended]

theorem doRenew_standing (own : ownLease s p h = .ok l) (live : l.live = true) (standing : l.term = .standing)
    (rest : List Byte) : doRenew p (byteOf h.slot.val :: h.generation :: rest) s = refuse .wrongKind s := by
  simp only [doRenew, decodeHandle_bytes, own, standing]
  split
  · rename_i cause ended
    exact absurd ended (not_ended_of_live live cause)
  · rfl

theorem doRenew_none {x : Byte} (above : 47 < x.toNat) (rest : List Byte) : doRenew p (x :: rest) s = refuse .badValue s := by
  simp only [doRenew, decodeHandle_none above]

theorem doRelease_error (own : ownLease s p h = .error st) :
    doRelease p [byteOf h.slot.val, h.generation] s = refuse st s := by
  simp only [doRelease, decodeHandle_bytes, own]

theorem doRelease_none {x : Byte} (above : 47 < x.toNat) (rest : List Byte) :
    doRelease p (x :: rest) s = refuse .badValue s := by
  simp only [doRelease, decodeHandle_none above]

theorem level_of_modifyBody (level : Level) (h : Handle) :
    decodeLevel (byteAt [byteOf h.slot.val, h.generation, level.code] 2) = some level := decodeLevel_code level

theorem doModify_badLevel (bad : modifyBadLevel s h level = true) :
    doModify p [byteOf h.slot.val, h.generation, level.code] s = refuse .badLevel s := by
  simp only [doModify, decodeHandle_bytes, level_of_modifyBody, bad, if_true]

theorem doModify_error (allowed : modifyBadLevel s h level = false) (own : ownLease s p h = .error st) :
    doModify p [byteOf h.slot.val, h.generation, level.code] s = refuse st s := by
  simp only [doModify, decodeHandle_bytes, level_of_modifyBody, allowed, Bool.false_eq_true, if_false, own]

theorem doModify_ended (allowed : modifyBadLevel s h level = false) (own : ownLease s p h = .ok l)
    (ended : l.state = .ended cause) :
    doModify p [byteOf h.slot.val, h.generation, level.code] s = refuseWith .leaseEnded [cause.code] s := by
  simp only [doModify, decodeHandle_bytes, level_of_modifyBody, allowed, Bool.false_eq_true, if_false, own, ended]

/-- R144, R156: a slot number above 47, or a level above BOOST. -/
theorem doModify_none {x g b : Byte} (out : 47 < x.toNat ∨ 3 < b.toNat) : doModify p [x, g, b] s = refuse .badValue s := by
  have byte : byteAt [x, g, b] 2 = b := rfl
  rcases out with above | above
  · simp only [doModify, decodeHandle_none above]
  · simp only [doModify, byte, decodeLevel_none above]
    cases decodeHandle [x, g, b] <;> rfl

theorem doRevoke_stale (stale : s.named h = none) :
    doRevoke p [byteOf h.slot.val, h.generation] s = refuse .staleHandle s := by
  simp only [doRevoke, decodeHandle_bytes, stale]

theorem doRevoke_ended (named : s.named h = some l) (ended : l.state = .ended cause) :
    doRevoke p [byteOf h.slot.val, h.generation] s = refuseWith .leaseEnded [cause.code] s := by
  simp only [doRevoke, decodeHandle_bytes, named, ended]

theorem doRevoke_none {x : Byte} (above : 47 < x.toNat) (rest : List Byte) :
    doRevoke p (x :: rest) s = refuse .badValue s := by
  simp only [doRevoke, decodeHandle_none above]

/-! ### The requests in RUN -/

variable {seq : Byte} {body reply : List Byte}

theorem exec_renew_in_run (executes : s.executes p seq = true) (running : s.partState = .run) (length : body.length = 4)
    (own : doRenew p body s = refuseWith st reply s) :
    exec (.renew p seq body) s = .next (answer p seq st reply s) :=
  exec_agent (r := .renew) executes rfl (if_pos running) length own

theorem exec_modify_in_run (executes : s.executes p seq = true) (running : s.partState = .run) (length : body.length = 3)
    (own : doModify p body s = refuseWith st reply s) :
    exec (.modify p seq body) s = .next (answer p seq st reply s) :=
  exec_agent (r := .modify) executes rfl (if_pos running) length own

theorem exec_release_in_run (executes : s.executes p seq = true) (running : s.partState = .run) (length : body.length = 2)
    (own : doRelease p body s = refuseWith st reply s) :
    exec (.release p seq body) s = .next (answer p seq st reply s) :=
  exec_agent (r := .release) executes rfl (if_pos running) length own

theorem exec_revoke_in_run (executes : s.executes p seq = true) (running : s.partState = .run) (length : body.length = 2)
    (own : doRevoke p body s = refuseWith st reply s) (sender : p = 0) :
    exec (.revoke p seq body) s = .next (answer p seq st reply s) :=
  exec_own (r := .revoke) executes (fun _ => sender) (if_pos running) length own

end

/-- Settles O21: in RUN each request answers as its owner does, and the owners refuse by the first of their checks that
fails. -/
theorem handleChecksOfLeaseRequests : Obligations.HandleChecksOfLeaseRequests := by
  intro s p seq h level t1 t0 executes running
  have renew {x g : Byte} {st : Status} {reply : List Byte} (own : doRenew p [x, g, t1, t0] s = refuseWith st reply s) :=
    exec_renew_in_run executes running rfl own
  have modify {x g b : Byte} {st : Status} {reply : List Byte} (own : doModify p [x, g, b] s = refuseWith st reply s) :=
    exec_modify_in_run executes running rfl own
  have release {x g : Byte} {st : Status} {reply : List Byte} (own : doRelease p [x, g] s = refuseWith st reply s) :=
    exec_release_in_run executes running rfl own
  have revoke {x g : Byte} {st : Status} {reply : List Byte} (own : doRevoke p [x, g] s = refuseWith st reply s) :=
    exec_revoke_in_run executes running rfl own
  have allowed {l : Lease} (named : s.named h = some l) (up : level ≠ .off)
      (within : ∀ r ∈ s.record l.domain, level.num ≤ r.maxLevel.num) : modifyBadLevel s h level = false :=
    modifyBadLevel_of_allowed up fun k same => by rwa [← Option.some.inj (named.symm.trans same)]
  refine ⟨fun stale => ?_, fun l named other => ?_, fun l cause named ended => ?_, fun l named holder live standing => ?_,
    fun x g above => ?_, fun x g b out => modify (doModify_none out), modify (doModify_badLevel (level := .off) rfl),
    fun l r named record above => modify (doModify_badLevel (modifyBadLevel_of_above named record above))⟩
  · have own := ownLease_stale (p := p) stale
    have known : level ≠ .off → modifyBadLevel s h level = false := fun up =>
      modifyBadLevel_of_allowed up fun l named => by rw [stale] at named; cases named
    exact ⟨renew (doRenew_error own _), fun up => modify (doModify_error (known up) own), release (doRelease_error own),
      revoke (doRevoke_stale stale)⟩
  · have own := ownLease_other named other
    exact ⟨renew (doRenew_error own _), fun up within => modify (doModify_error (allowed named up within) own),
      release (doRelease_error own)⟩
  · exact ⟨fun holder => renew (doRenew_ended (ownLease_eq named holder) ended _),
      fun holder up within => modify (doModify_ended (allowed named up within) (ownLease_eq named holder) ended),
      revoke (doRevoke_ended named ended)⟩
  · exact renew (doRenew_standing (ownLease_eq named holder) live standing _)
  · exact ⟨renew (doRenew_none above _), release (doRelease_none above _), revoke (doRevoke_none above _)⟩

end Sys2Proof.Machine
end

section
/-! A level-reached report: the leases of the list are granted and upgraded one after another, each with its notice
(R29, R32, R126, R127). -/

namespace Sys2Proof.Machine

/-- R32: the notice that a report posts to an agent for the lease in a slot. -/
def State.grantNotice (s : State) (assured : Level) (a : Agent) (i : SlotId) : Option Notice :=
  match s.lease i with
  | some l =>
    if l.holder = a ∧ l.reported assured ≠ l then (l.reported assured).granted.map fun g => .granted (s.handle i) g
    else none
  | none => none

theorem grantNotices_eq (s : State) (d : Managed) (a : Agent) :
    s.grantNotices d a = (s.list d).filterMap (s.grantNotice (s.assuredOf d) a) := rfl

/-- A slot's notice is that of the lease and the generation that stand in it. -/
theorem grantNotice_of_slot {s t : State} {i : SlotId} (slot : t.slot i = s.slot i) (assured : Level) (a : Agent) :
    t.grantNotice assured a i = s.grantNotice assured a i := by
  unfold State.grantNotice State.handle
  rw [lease_eq_of_slot slot, slot]

/-- R32: a report leaves a lease, or grants it a new level with a notice. -/
theorem reportLease_cases (assured : Level) {i : SlotId} {s : State} {l : Lease} (h : s.lease i = some l) :
    (l.reported assured = l ∧ reportLease assured i s = s) ∨
    ∃ g, l.reported assured ≠ l ∧ (l.reported assured).granted = some g ∧
      reportLease assured i s = (s.setLease i (l.reported assured)).post l.holder (.granted (s.handle i) g) := by
  have report : reportLease assured i s = match l.state with
      | .pending =>
        if l.wanted.num ≤ assured.num then (s.setLease i l.grant).post l.holder (.granted (s.handle i) l.wanted) else s
      | .held _ =>
        if grantedNum l.granted < l.wanted.num ∧ grantedNum l.granted < assured.num then
          (s.setLease i { l with granted := some (l.wanted.lower assured) }).post l.holder
            (.granted (s.handle i) (l.wanted.lower assured))
        else s
      | .ended _ => s := by
    simp only [reportLease, h] <;> rfl
  rw [report]
  unfold Lease.reported
  cases state : l.state with
  | ended cause => exact .inl ⟨rfl, rfl⟩
  | pending =>
    by_cases met : l.wanted.num ≤ assured.num
    · refine .inr ⟨l.wanted, ?_, ?_, ?_⟩ <;> dsimp only <;> rw [if_pos met]
      · exact fun same => by simpa [state] using congrArg Lease.state same
      · exact (if_pos met).symm ▸ rfl
    · exact .inl ⟨if_neg met, if_neg met⟩
  | held c =>
    by_cases raised : grantedNum l.granted < l.wanted.num ∧ grantedNum l.granted < assured.num
    · refine .inr ⟨l.wanted.lower assured, ?_, ?_, ?_⟩ <;> dsimp only <;> rw [if_pos raised]
      · intro same
        have level : some (l.wanted.lower assured) = l.granted := congrArg Lease.granted same
        have number : (l.wanted.lower assured).num = grantedNum l.granted := by rw [← level]; rfl
        unfold Level.lower at number
        split at number <;> omega
      · exact (if_pos raised).symm ▸ rfl
    · exact .inl ⟨if_neg raised, if_neg raised⟩

theorem slot_reportLease (assured : Level) (i : SlotId) (s : State) (j : SlotId) :
    (reportLease assured i s).slot j =
      if j = i then { s.slot i with lease := (s.lease i).map (Lease.reported assured) } else s.slot j := by
  cases h : s.lease i with
  | none =>
    have same : reportLease assured i s = s := by simp only [reportLease, h]
    rw [same]
    split
    · subst j
      calc s.slot i = { s.slot i with lease := s.lease i } := rfl
        _ = _ := by rw [h]; rfl
    · rfl
  | some l =>
    rcases reportLease_cases assured h with ⟨same, eq⟩ | ⟨g, _, _, eq⟩ <;> rw [eq]
    · split
      · subst j
        calc s.slot i = { s.slot i with lease := s.lease i } := rfl
          _ = _ := by rw [h, Option.map_some, same]
      · rfl
    · exact slot_setSlot s j i _

theorem queue_reportLease (assured : Level) (i : SlotId) (s : State) (a : Agent) :
    (reportLease assured i s).queue a = postAll (s.grantNotice assured a i).toList (s.queue a) := by
  cases h : s.lease i with
  | none => simp [reportLease, State.grantNotice, h, postAll]
  | some l =>
    rcases reportLease_cases assured h with ⟨same, eq⟩ | ⟨g, changed, granted, eq⟩ <;> rw [eq]
    · simp [State.grantNotice, h, same, postAll]
    · rw [State.post, queue_setQueue]
      by_cases here : a = l.holder
      · subst here
        simp [State.grantNotice, h, changed, granted, postAll, State.setLease]
      · simp [State.grantNotice, h, here, Ne.symm here, postAll, State.setLease]

theorem lists_windows_wakes_reportLease (assured : Level) (i : SlotId) (s : State) :
    (reportLease assured i s).lists = s.lists ∧ (reportLease assured i s).windows = s.windows ∧
      (reportLease assured i s).wakes = s.wakes := by
  unfold reportLease
  repeat' split
  all_goals exact ⟨rfl, rfl, rfl⟩

/-- R32: the report at several slots, in their order. -/
theorem foldl_reportLease (assured : Level) {l : List SlotId} (nodup : l.Nodup) (s : State) :
    l.foldl (fun t i => reportLease assured i t) s =
      { s with
        slots := Vector.ofFn fun i =>
          if i ∈ l then { s.slot i with lease := (s.lease i).map (Lease.reported assured) } else s.slot i
        queues := Vector.ofFn fun a => postAll (l.filterMap (s.grantNotice assured a)) (s.queue a) } := by
  induction l generalizing s with
  | nil =>
    have slots : (Vector.ofFn fun i => s.slot i) = s.slots := by ext i h : 1; simp [State.slot]
    have queues : (Vector.ofFn fun a => s.queue a) = s.queues := by ext a h : 1; simp [State.queue]
    simp [slots, queues, postAll]
  | cons j l ih =>
    obtain ⟨absent, nodup⟩ := List.nodup_cons.1 nodup
    have slots : (fun i => if i ∈ l then
          { (reportLease assured j s).slot i with
            lease := ((reportLease assured j s).lease i).map (Lease.reported assured) }
        else (reportLease assured j s).slot i) =
        fun i => if i ∈ j :: l then { s.slot i with lease := (s.lease i).map (Lease.reported assured) }
          else s.slot i := by
      funext i
      unfold State.lease
      rw [slot_reportLease]
      by_cases here : i = j
      · subst here; simp [absent, State.lease]
      · simp [here]
    have queues : (fun a => postAll (l.filterMap ((reportLease assured j s).grantNotice assured a))
          ((reportLease assured j s).queue a)) =
        fun a => postAll ((j :: l).filterMap (s.grantNotice assured a)) (s.queue a) := by
      funext a
      have later : l.filterMap ((reportLease assured j s).grantNotice assured a) =
          l.filterMap (s.grantNotice assured a) := by
        refine List.filterMap_congr fun i mem => grantNotice_of_slot ?_ assured a
        rw [slot_reportLease, if_neg (ne_of_mem_of_not_mem mem absent)]
      rw [later, queue_reportLease]
      unfold postAll
      cases notice : s.grantNotice assured a j with
      | none => simp [notice]
      | some n => simp [notice]
    obtain ⟨⟨_, _, _, _, _, rest⟩, _⟩ := leaseSide_reportLease assured j s
    obtain ⟨lists, windows, wakes⟩ := lists_windows_wakes_reportLease assured j s
    rw [List.foldl_cons, ih nodup, slots, queues]
    rw [rest] at lists windows wakes ⊢
    dsimp only at lists windows wakes ⊢
    rw [lists, windows, wakes]

/-- Settles O47: the report is taken, and `foldl_reportLease` says what it does along the list. -/
theorem reportGrantsTheList : Obligations.ReportGrantsTheList := by
  intro s d level released report nodup
  have run : exec (.levelReachedReport d) s = .next (if s.resetHeld = true then s else takeReport d s) := rfl
  have taken : takeReport d s =
      (s.list d).foldl (fun t i => reportLease (s.assuredOf d) i t) (s.setReport d none) := by
    simp only [takeReport, report]
  rw [run, if_neg (by simp [released]), taken, foldl_reportLease _ nodup]
  rfl

end Sys2Proof.Machine
end

section
/-! A tick: the leases that it brings to zero end in slot order, and every other countdown is lowered; LEASE_EXPIRY as a
share of it (R30, R36, R45, R51). -/

namespace Sys2Proof.Machine

/-! ### The slots that a tick lowers -/

/-- R30: a slot whose lease a tick lowers. -/
def Slot.ticked (x : Slot) : Slot := { x with lease := x.lease.map Lease.ticked }

/-- R30: the tick has lowered the countdowns in a set of slots. -/
def tickedOn (l : List SlotId) (s : State) : State :=
  { s with slots := Vector.ofFn fun i => if i ∈ l then (s.slot i).ticked else s.slot i }

theorem leaseSide_tickedOn (l : List SlotId) (s : State) : leaseSide s (tickedOn l s) :=
  leaseSide_of_eq ⟨_, _, _, _, rfl⟩

@[simp] theorem list_tickedOn (l : List SlotId) (s : State) : (tickedOn l s).list = s.list := by
  unfold tickedOn State.list
  rfl

@[simp] theorem window_tickedOn (l : List SlotId) (s : State) : (tickedOn l s).window = s.window := by
  unfold tickedOn State.window
  rfl

@[simp] theorem wake_tickedOn (l : List SlotId) (s : State) : (tickedOn l s).wake = s.wake := by
  unfold tickedOn State.wake
  rfl

@[simp] theorem queue_tickedOn (l : List SlotId) (s : State) : (tickedOn l s).queue = s.queue := by
  unfold tickedOn State.queue
  rfl

theorem slot_tickedOn (l : List SlotId) (s : State) (i : SlotId) :
    (tickedOn l s).slot i = if i ∈ l then (s.slot i).ticked else s.slot i := by simp [tickedOn, State.slot]

theorem lease_tickedOn (l : List SlotId) (s : State) (i : SlotId) :
    (tickedOn l s).lease i = if i ∈ l then (s.lease i).map Lease.ticked else s.lease i := by
  rw [State.lease, slot_tickedOn]
  split <;> rfl

theorem handle_tickedOn (l : List SlotId) (s : State) (i : SlotId) : (tickedOn l s).handle i = s.handle i := by
  unfold State.handle
  rw [slot_tickedOn]
  split <;> rfl

/-- What differs from a state in its slots alone, as after a tick there, is that state after the tick. -/
theorem eq_tickedOn {s t : State} {l : List SlotId} (h : ∃ slots, t = { s with slots := slots })
    (slots : ∀ i, t.slot i = if i ∈ l then (s.slot i).ticked else s.slot i) : t = tickedOn l s := by
  obtain ⟨_, rfl⟩ := h
  refine congrArg (fun x => { s with slots := x }) (Vector.ext fun i hi => ?_)
  have read := slots ⟨i, hi⟩
  rw [Vector.getElem_ofFn]
  exact read

theorem tickedOn_nil (s : State) : tickedOn [] s = s := (eq_tickedOn ⟨_, rfl⟩ fun _ => rfl).symm

/-- A tick touches the countdown of a HELD lease alone. -/
theorem ticked_of_no_countdown {l : Lease} (h : ∀ c, l.state ≠ .held (some c)) : l.ticked = l := by
  unfold Lease.ticked
  split
  · exact absurd ‹_› (h _)
  · rfl

theorem ticked_of_countdown {l : Lease} {c : Countdown} (held : l.state = .held (some c)) :
    l.ticked = { l with state := .held (some c.tick) } := by
  unfold Lease.ticked
  simp only [held]
  rfl

theorem ticked_cases (l : Lease) : l.ticked = l ∨ ∃ c, l.state = .held (some c) ∧
    l.ticked = { l with state := .held (some c.tick) } := by
  by_cases held : ∃ c, l.state = .held (some c)
  · obtain ⟨c, held⟩ := held
    exact .inr ⟨c, held, ticked_of_countdown held⟩
  · push Not at held
    exact .inl (ticked_of_no_countdown held)

/-- What does not ask for the state of a lease beyond its being live is met after a tick as before. -/
theorem any_live_tickedOn (l : List SlotId) (s : State) (i : SlotId) {p : Lease → Bool}
    (blind : ∀ l st, p { l with state := st } = p l) :
    ((tickedOn l s).lease i).any (fun l => l.live && p l) = (s.lease i).any fun l => l.live && p l := by
  rw [lease_tickedOn]
  split
  · cases s.lease i with
    | none => rfl
    | some k =>
      rcases ticked_cases k with same | ⟨c, held, eq⟩
      · rw [Option.map_some, same]
      · simp [eq, blind, Lease.live, held]
  · rfl

theorem holder_tickedOn (l : List SlotId) (s : State) (i : SlotId) (a : Agent) :
    ((tickedOn l s).lease i).any (fun l => l.holder == a) = (s.lease i).any fun l => l.holder == a := by
  rw [lease_tickedOn]
  split
  · cases s.lease i with
    | none => rfl
    | some k => rcases ticked_cases k with same | ⟨c, _, eq⟩ <;> simp [*]
  · rfl

theorem liveOn_tickedOn (l : List SlotId) (s : State) (d : Managed) (i : SlotId) :
    (tickedOn l s).liveOn d i = s.liveOn d i := any_live_tickedOn l s i fun _ _ => rfl

theorem watches_tickedOn (l : List SlotId) (s : State) (w : WindowId) (i : SlotId) :
    (tickedOn l s).watches w i = s.watches w i := any_live_tickedOn l s i fun _ _ => rfl

theorem liveAt_tickedOn (l : List SlotId) (s : State) (i : SlotId) : (tickedOn l s).liveAt i = s.liveAt i := by
  rw [liveAt_eq_any, liveAt_eq_any, any_live_tickedOn l s i fun _ _ => rfl]

theorem ended_ticked (l : Lease) (cause : EndCause) :
    ({ l.ticked with state := .ended cause } : Lease) = { l with state := .ended cause } := by
  rcases ticked_cases l with same | ⟨c, _, eq⟩ <;> simp [*]

theorem ticked_ended (l : Lease) (cause : EndCause) :
    ({ l with state := .ended cause } : Lease).ticked = { l with state := .ended cause } := rfl

/-- R30: the ending of some leases and the lowering of countdowns do not meet. -/
theorem withEnded_tickedOn (order : List SlotId) (cause : SlotId → EndCause) (l : List SlotId) (s : State) :
    withEnded order cause (tickedOn l s) = tickedOn l (withEnded order cause s) := by
  refine ((leaseSide_tickedOn l s).trans (leaseSide_withEnded _ _ _)).ext
    ((leaseSide_withEnded _ _ s).trans (leaseSide_tickedOn l _)) (fun i => ?_) (fun d => ?_) (fun w => ?_) (fun k => ?_)
    fun a => ?_
  · rw [slot_tickedOn, slot_withEnded, slot_withEnded, lease_tickedOn, liveAt_tickedOn, slot_tickedOn]
    by_cases ends : (order.contains i && s.liveAt i) = true
    · rw [if_pos ends, if_pos ends]
      split
      · unfold Slot.ticked
        cases s.lease i with
        | none => rfl
        | some k => simp [ended_ticked, ticked_ended]
      · rfl
    · rw [if_neg ends, if_neg ends]
  · rw [list_tickedOn, list_withEnded, list_withEnded]
    simp only [liveOn_tickedOn, list_tickedOn]
  · rw [window_tickedOn, window_withEnded, window_withEnded]
    simp only [watches_tickedOn, window_tickedOn]
  · rw [wake_tickedOn, link_withEnded, link_withEnded]
    simp only [liveAt_tickedOn, handle_tickedOn, wake_tickedOn]
  · rw [queue_tickedOn, queue_withEnded, queue_withEnded]
    simp only [liveAt_tickedOn, handle_tickedOn, holder_tickedOn, queue_tickedOn]

theorem tickedOn_tickedOn {j : SlotId} {l : List SlotId} (absent : j ∉ l) (s : State) :
    tickedOn l (tickedOn [j] s) = tickedOn (j :: l) s := by
  refine eq_tickedOn ⟨(tickedOn l (tickedOn [j] s)).slots, by unfold tickedOn; rfl⟩ fun i => ?_
  rw [slot_tickedOn, slot_tickedOn]
  by_cases here : i = j
  · subst here; simp [absent]
  · simp [here]

/-- A slot without a countdown may be counted among those that a tick lowers. -/
theorem tickedOn_cons_of_no_countdown {j : SlotId} {s : State} (h : ∀ l ∈ s.lease j, ∀ c, l.state ≠ .held (some c))
    (l : List SlotId) : tickedOn (j :: l) s = tickedOn l s := by
  refine eq_tickedOn ⟨_, rfl⟩ fun i => ?_
  rw [slot_tickedOn]
  by_cases here : i = j
  · subst here
    have same : (s.slot i).ticked = s.slot i := by
      unfold Slot.ticked
      have lease : (s.slot i).lease = s.lease i := rfl
      cases free : s.lease i with
      | none => rw [lease, free]; exact congrArg (Slot.mk _) (lease ▸ free).symm
      | some k =>
        rw [lease, free, Option.map_some, ticked_of_no_countdown (h k free)]
        exact congrArg (Slot.mk _) (lease ▸ free).symm
    simp [same]
  · simp [here]

/-! ### The tick at one slot and at several -/

theorem expires_iff {s : State} {i : SlotId} :
    s.expires i = true ↔ ∃ l c, s.lease i = some l ∧ l.state = .held (some c) ∧ c.expires = true := by
  unfold State.expires
  constructor
  · intro h
    split at h
    · rename_i l lease
      split at h
      · rename_i c held; exact ⟨l, c, lease, held, h⟩
      · cases h
    · cases h
  · rintro ⟨l, c, lease, held, due⟩
    simp only [lease, held, due]

theorem live_of_countdown {l : Lease} {c : Countdown} (held : l.state = .held (some c)) : l.live = true := by
  simp [Lease.live, held]

theorem tickLease_of_expires {s : State} {i : SlotId} (ends : s.expires i = true) :
    tickLease s i = withEnded [i] s.expiryCauseAt s := by
  obtain ⟨l, c, lease, held, due⟩ := expires_iff.1 ends
  rw [tickLease_ends lease held due, endLease_eq_withEnded _ lease (live_of_countdown held)]
  have cause : s.expiryCauseAt i = l.term.expiryCause := by simp only [State.expiryCauseAt, lease]
  have one := withEnded_append (first := [i]) (later := []) (c₁ := fun _ => l.term.expiryCause) (c₂ := s.expiryCauseAt)
    (c := s.expiryCauseAt) (by simp) (by simp [cause]) (by simp) s
  rwa [withEnded_nil, List.append_nil] at one

theorem tickLease_of_not_expires {s : State} {i : SlotId} (stays : s.expires i = false) : tickLease s i = tickedOn [i] s := by
  have still : ∀ {t : State}, t = s → (∀ l ∈ s.lease i, ∀ c, l.state ≠ .held (some c)) → t = tickedOn [i] s := by
    intro t same none
    rw [same, tickedOn_cons_of_no_countdown none, tickedOn_nil]
  cases lease : s.lease i with
  | none => exact still (by simp only [tickLease, lease]) (by simp [lease])
  | some l =>
    by_cases held : ∃ c, l.state = .held (some c)
    · obtain ⟨c, held⟩ := held
      have late : c.expires = false := by simpa [State.expires, lease, held] using stays
      have lowers : tickLease s i = s.setLease i l.ticked := by
        simp [tickLease, lease, held, late, ticked_of_countdown held]
      rw [lowers]
      refine eq_tickedOn ⟨_, rfl⟩ fun j => ?_
      rw [State.setLease, slot_setSlot]
      by_cases here : j = i
      · subst here
        have own : (s.slot j).lease = some l := lease
        simp [Slot.ticked, own]
      · simp [here]
    · push Not at held
      refine still ?_ (by simpa [lease] using held)
      simp only [tickLease, lease]

theorem expires_of_slot {s t : State} {i : SlotId} (lease : t.lease i = s.lease i) :
    t.expires i = s.expires i ∧ t.expiryCauseAt i = s.expiryCauseAt i := by
  unfold State.expires State.expiryCauseAt
  rw [lease]
  exact ⟨rfl, rfl⟩

/-- The ending of several leases reads the causes of those alone. -/
theorem withEnded_congr {order : List SlotId} {c c' : SlotId → EndCause} (same : ∀ i ∈ order, c i = c' i) (s : State) :
    withEnded order c s = withEnded order c' s := by
  have one := withEnded_append (first := order) (later := []) (c₁ := c) (c₂ := c') (c := c') (by simp)
    (fun i mem => (same i mem).symm) (by simp) s
  rwa [withEnded_nil, List.append_nil] at one

/-- R30: the tick's share at several slots: the leases that it ends, in their order, and the countdowns that it lowers. -/
theorem foldl_tickLease {l : List SlotId} (nodup : l.Nodup) (s : State) :
    l.foldl tickLease s = tickedOn l (withEnded (l.filter s.expires) s.expiryCauseAt s) := by
  induction l generalizing s with
  | nil =>
    rw [List.filter_nil, withEnded_nil, tickedOn_nil]
    rfl
  | cons j l ih =>
    obtain ⟨absent, nodup⟩ := List.nodup_cons.1 nodup
    have later : ∀ {t : State}, (∀ i ∈ l, t.lease i = s.lease i) →
        withEnded (l.filter t.expires) t.expiryCauseAt t = withEnded (l.filter s.expires) s.expiryCauseAt t := by
      intro t leases
      rw [List.filter_congr fun i mem => (expires_of_slot (leases i mem)).1]
      exact withEnded_congr (fun i mem => (expires_of_slot (leases i (List.mem_filter.1 mem).1)).2) t
    have other : ∀ i ∈ l, i ≠ j := fun i mem => ne_of_mem_of_not_mem mem absent
    rw [List.foldl_cons, ih nodup]
    cases ends : s.expires j with
    | true =>
      rw [tickLease_of_expires ends, later fun i mem => by rw [lease_withEnded, if_neg (by simp [other i mem])],
        withEnded_append (fun i mem mem' => absent (by rw [← List.mem_singleton.1 mem]; exact (List.mem_filter.1 mem').1))
          (fun _ _ => rfl) (fun _ _ => rfl), List.filter_cons_of_pos ends, List.singleton_append]
      refine (tickedOn_cons_of_no_countdown (fun k lease c => ?_) l).symm
      obtain ⟨k', c', lease', held, _⟩ := expires_iff.1 ends
      have live : s.liveAt j = true := by simp only [State.liveAt, lease', live_of_countdown held]
      rw [lease_withEnded, if_pos (by simp [live])] at lease
      obtain ⟨_, _, rfl⟩ := Option.map_eq_some_iff.1 lease
      nofun
    | false =>
      rw [tickLease_of_not_expires ends, later fun i mem => by rw [lease_tickedOn, if_neg (by simp [other i mem])],
        withEnded_tickedOn, tickedOn_tickedOn absent, List.filter_cons_of_neg (by simp [ends])]

/-- R30: the lease table's share of a tick. -/
theorem tickLeases_eq (s : State) :
    tickLeases s = tickedOn allSlots (withEnded (allSlots.filter s.expires) s.expiryCauseAt s) :=
  foldl_tickLease (by decide) s

theorem slots_tickedOn_allSlots (s : State) : (tickedOn allSlots s).slots = s.slots.map Slot.ticked := by
  ext i h : 1
  simp [tickedOn, mem_allSlots, State.slot]

theorem lowerTimers_ticked (s : State) : lowerTimers { s with slots := s.slots.map Slot.ticked } = { s with
    slots := s.slots.map fun x => { x with lease := x.lease.map Lease.ticked }
    engines := s.engines.map fun e => { e with timer := e.timer.map fun n => n - 1 } } := rfl

theorem engines_withEnded (order : List SlotId) (cause : SlotId → EndCause) (s : State) :
    (withEnded order cause s).engines = s.engines := by
  unfold withEnded
  rfl

/-- R30: what a tick leaves in the state but for the engines' timers. -/
theorem tickedOn_allSlots (s : State) : tickedOn allSlots s = { s with slots := s.slots.map Slot.ticked } :=
  congrArg (fun x => { s with slots := x }) (slots_tickedOn_allSlots s)

/-! ### LEASE_EXPIRY -/

theorem exec_leaseExpiry {s : State} (released : s.resetHeld = false) (i : SlotId) :
    exec (.leaseExpiry i) s = .next (takeExpiry i (settleMarks s)) := by
  have run : exec (.leaseExpiry i) s = .next (if s.resetHeld = true then s else takeExpiry i (settleMarks s)) := rfl
  rw [run, if_neg (by simp [released])]

theorem exec_tick {s : State} (released : s.resetHeld = false) : exec .tick s = .next (lowerTimers (tickLeases s)) := by
  have run : exec .tick s = .next (if s.resetHeld = true then s else lowerTimers (tickLeases s)) := rfl
  rw [run, if_neg (by simp [released])]

theorem settle_since {c : Countdown} {mark : SinceTick} (loaded : mark ≠ .loaded) (first : mark ≠ .untouched) :
    c.settle.since = mark ↔ c.since = mark := by
  unfold Countdown.settle
  dsimp only
  split
  · rename_i eq
    rw [eq]
    exact ⟨fun h => absurd h.symm first, fun h => absurd h.symm loaded⟩
  · rfl

/-- R30, R45: an expiry that is due, with no claim taken ahead of it, ends the lease. -/
theorem takeExpiry_settled_ends {s : State} {i : SlotId} {l : Lease} {c : Countdown} (lease : s.lease i = some l)
    (held : l.state = .held (some c)) (due : c.left ≤ 1) (notAhead : c.since ≠ .ahead) (notPassed : c.since ≠ .passed) :
    takeExpiry i (settleMarks s) = withEnded [i] (fun _ => l.term.expiryCause) (withSettled s) := by
  have settled : (settleMarks s).lease i = some { l with state := .held (some c.settle) } := by
    rw [lease_settleMarks, lease, Option.map_some, held, settle_held]
    rfl
  have first : c.settle.since ≠ .ahead := fun h => notAhead ((settle_since (by decide) (by decide)).1 h)
  have ends : c.settle.expires = true := by
    have second : c.settle.since ≠ .passed := fun h => notPassed ((settle_since (by decide) (by decide)).1 h)
    have left : c.settle.left = c.left := rfl
    simp [Countdown.expires, left, due, second]
  rw [takeExpiry_ends settled rfl first ends, endLease_eq_withEnded _ settled rfl, settleMarks_eq_withSettled]

/-- Settles O48: `tickLeases_eq` gives the tick's share at the leases, `takeExpiry_settled_ends` that of LEASE_EXPIRY. -/
theorem tickLowersEveryCountdown : Obligations.TickLowersEveryCountdown := by
  intro s
  refine ⟨fun released => ?_, fun i l c released lease held due notAhead notPassed => ?_, fun held => ?_⟩
  · rw [exec_tick released, tickLeases_eq]
    rw [tickedOn_allSlots, lowerTimers_ticked, engines_withEnded]
  · rw [exec_leaseExpiry released, takeExpiry_settled_ends lease held due notAhead notPassed]
  · exact congrArg _ (if_pos held)

end Sys2Proof.Machine
end

section
/-! A claim and an expiry at one tick: what a tick, a LEASE_EXPIRY and a RENEW each make of the lease in one slot, and the
orders in which they meet (R30, R31, R45, R46, R157). -/

namespace Sys2Proof.Machine

/-! ### What a tick makes of one lease -/

/-- R30, R45: a countdown after a tick: its lease has ended, or it is lowered. -/
def Countdown.afterTick (c : Countdown) (t : Term) : LeaseState :=
  if c.expires = true then .ended t.expiryCause else .held (some c.tick)

theorem afterTick_loaded {left : Nat} {since : SinceTick} (mark : since ≠ .passed) (t : Term) :
    Countdown.afterTick { left := left, since := since } t =
      if left ≤ 1 then .ended t.expiryCause else .held (some { left := left - 1, since := .untouched }) := by
  by_cases due : left ≤ 1 <;> simp [Countdown.afterTick, Countdown.expires, Countdown.tick, due, mark]

theorem afterTick_passed (left : Nat) (t : Term) : Countdown.afterTick { left := left, since := .passed } t =
    .held (some { left := if left ≤ 1 then left else left - 1, since := .untouched }) := by
  simp [Countdown.afterTick, Countdown.expires, Countdown.tick]

theorem lease_tickLeases (s : State) (i : SlotId) : (tickLeases s).lease i =
    ((if s.expires i = true then (s.lease i).map fun l => { l with state := .ended (s.expiryCauseAt i) } else s.lease i).map
      Lease.ticked) := by
  have lives : s.expires i = true → s.liveAt i = true := fun ends => by
    obtain ⟨l, c, lease, held, _⟩ := expires_iff.1 ends
    simp only [State.liveAt, lease, live_of_countdown held]
  rw [tickLeases_eq, lease_tickedOn, if_pos (mem_allSlots i), lease_withEnded]
  cases ends : s.expires i with
  | true => simp [ends, lives ends, mem_allSlots]
  | false => simp [ends]

theorem lease_lowerTimers (s : State) : (lowerTimers s).lease = s.lease := rfl

variable {s : State} {i : SlotId} {h : Handle} {l : Lease} {c : Countdown}

/-- R30: a tick at a lease that has a countdown. -/
theorem exec_tick_countdown (released : s.resetHeld = false) (lease : s.lease i = some l)
    (held : l.state = .held (some c)) :
    ∃ v, exec .tick s = .next v ∧ v.lease i = some { l with state := c.afterTick l.term } := by
  refine ⟨_, exec_tick released, ?_⟩
  rw [lease_lowerTimers, lease_tickLeases, lease]
  have reads : s.expires i = c.expires ∧ s.expiryCauseAt i = l.term.expiryCause := by
    simp only [State.expires, State.expiryCauseAt, lease, held, and_self]
  rw [reads.1, reads.2, Countdown.afterTick]
  split
  · rfl
  · rw [Option.map_some, ticked_of_countdown held]

/-- A tick leaves an ended lease. -/
theorem exec_tick_ended {cause : EndCause} (released : s.resetHeld = false) (lease : s.lease i = some l)
    (ended : l.state = .ended cause) : ∃ v, exec .tick s = .next v ∧ v.lease i = some l := by
  refine ⟨_, exec_tick released, ?_⟩
  have stays : s.expires i = false := by simp only [State.expires, lease, ended]
  have still : l.ticked = l := ticked_of_no_countdown (by rw [ended]; nofun)
  rw [lease_lowerTimers, lease_tickLeases, stays, lease, if_neg Bool.false_ne_true, Option.map_some, still]

/-! ### What a LEASE_EXPIRY makes of one lease -/

/-- R30, R45: a countdown after the LEASE_EXPIRY of its own lease. -/
def Countdown.afterExpiry (c : Countdown) (t : Term) : LeaseState :=
  if c.since = .ahead then .held (some { c with since := .passed })
  else if c.settle.expires = true then .ended t.expiryCause
  else .held (some c.settle)

theorem afterExpiry_behind {left : Nat} {since : SinceTick} (behind : since = .ahead ∨ since = .passed) (t : Term) :
    Countdown.afterExpiry { left := left, since := since } t = .held (some { left := left, since := .passed }) := by
  rcases behind with rfl | rfl <;> simp [Countdown.afterExpiry, Countdown.settle, Countdown.expires]

theorem afterExpiry_first {left : Nat} {since : SinceTick} (first : since = .untouched ∨ since = .loaded) (t : Term) :
    Countdown.afterExpiry { left := left, since := since } t =
      if left ≤ 1 then .ended t.expiryCause else .held (some { left := left, since := .untouched }) := by
  rcases first with rfl | rfl <;> by_cases due : left ≤ 1 <;>
    simp [Countdown.afterExpiry, Countdown.settle, Countdown.expires, due]

/-- A handle names what it named, rewritten, where the lease in its slot is rewritten. -/
theorem named_of_slot_map {t : State} {f : Lease → Lease}
    (slot : t.slot h.slot = { s.slot h.slot with lease := (s.lease h.slot).map f }) : t.named h = (s.named h).map f := by
  have lease : t.lease h.slot = (s.lease h.slot).map f := congrArg Slot.lease slot
  unfold State.named
  rw [lease, slot]
  split <;> rfl

theorem named_withEnded_self {cause : SlotId → EndCause} (live : s.liveAt h.slot = true) :
    (withEnded [h.slot] cause s).named h = (s.named h).map fun l => { l with state := .ended (cause h.slot) } :=
  named_of_slot_map (by rw [slot_withEnded, if_pos (by simp [live])])

theorem named_endLease_self {cause : EndCause} (named : s.named h = some l) (live : l.live = true) :
    (endLease h.slot cause s).named h = some { l with state := .ended cause } := by
  have lease := lease_of_named named
  rw [endLease_eq_withEnded cause lease live, named_withEnded_self (by simp only [State.liveAt, lease, live]), named]
  rfl

/-- LEASE_EXPIRY of another slot leaves what a handle names. -/
theorem named_takeExpiry_other {j : SlotId} (other : h.slot ≠ j) (s : State) : (takeExpiry j s).named h = s.named h := by
  unfold takeExpiry
  split
  · rename_i l lease
    split
    · rename_i c held
      split
      · rw [named_setLease lease, if_neg other]
      · split
        · rw [endLease_eq_withEnded _ lease (live_of_countdown held)]
          exact named_of_slot (by rw [slot_withEnded, if_neg (by simp [other])])
        · rfl
    · rfl
  · rfl

/-- R45: the LEASE_EXPIRY of a lease that has a countdown. -/
theorem named_takeExpiry_self (named : s.named h = some l) (held : l.state = .held (some c)) :
    (takeExpiry h.slot (settleMarks s)).named h = some { l with state := c.afterExpiry l.term } := by
  have settled : (settleMarks s).named h = some { l with state := .held (some c.settle) } := by
    rw [named_settleMarks, named, Option.map_some, held, settle_held]
    rfl
  have lease := lease_of_named settled
  have ahead : c.settle.since = .ahead ↔ c.since = .ahead := settle_since (by decide) (by decide)
  unfold Countdown.afterExpiry
  by_cases behind : c.since = .ahead
  · rw [takeExpiry_behind lease rfl (ahead.2 behind), named_setLease lease, if_pos rfl, settled, if_pos behind]
    rfl
  · rw [if_neg behind]
    by_cases due : c.settle.expires = true
    · rw [takeExpiry_ends lease rfl (mt ahead.1 behind) due, named_endLease_self settled rfl, if_pos due]
    · rw [takeExpiry_not_due lease rfl (mt ahead.1 behind) (by simpa using due), settled, if_neg due]

theorem leaseSide_leaseExpiry (i : SlotId) (s : State) : leaseSide s (takeExpiry i (settleMarks s)) :=
  (leaseSide_settleMarks s).trans (leaseSide_takeExpiry i _)

/-- What a port takes is not of the lease side. -/
theorem leaseSide.executes {t : State} (side : leaseSide s t) (p : Agent) (seq : Byte) :
    t.executes p seq = s.executes p seq := by
  obtain ⟨⟨_, _, _, _, _, rfl⟩, _⟩ := side
  rfl

/-! ### What a RENEW makes of one lease -/

/-- R45: the mark of a countdown that is loaded anew. -/
theorem markOnLoading_eq (c : Countdown) : c.markOnLoading =
    if c.since = .untouched then (if c.left ≤ 1 then .ahead else .loaded) else c.since := by
  by_cases first : c.since = .untouched
  · rw [if_pos first]
    split
    · exact markOnLoading_due first ‹_›
    · exact markOnLoading_not_due first (Nat.not_le.1 ‹_›)
  · rw [if_neg first, markOnLoading_again first]

/-- R31, R157: RENEW of a lease that has a countdown loads it. -/
theorem exec_renew_countdown {p : Agent} {seq : Byte} {n time : Nat} {term : Term} (executes : s.executes p seq = true)
    (running : s.partState = .run) (named : s.named h = some l) (holder : l.holder = p) (held : l.state = .held (some c))
    (fits : time ≤ 65535) (terms : l.term = .timed n ∧ term = .timed (if time = 0 then n else time) ∨
      ∃ w, l.term = .watched n w ∧ term = .watched (if time = 0 then n else time) w) :
    ∃ t, exec (.renew p seq ([byteOf h.slot.val, h.generation] ++ bigEndian 2 time)) s = .next t ∧
      t.resetHeld = s.resetHeld ∧ t.named h = some { l with
        term := term
        state := .held (some { left := if time = 0 then n else time, since := c.markOnLoading }) } := by
  refine ⟨_, renewLoadsTheTime s p seq h l n time term executes running named holder (live_of_countdown held) fits terms, ?_⟩
  rw [if_neg (by rw [held]; nofun), held, load_held]
  refine ⟨rfl, ?_⟩
  change (s.setLease h.slot _).named h = _
  rw [named_setLease (lease_of_named named), if_pos rfl, named]
  rfl

/-! ### The orders in which they meet -/

section
variable {p : Agent} {seq : Byte} {n time : Nat} {term : Term}

theorem released_of_executes (executes : s.executes p seq = true) : s.resetHeld = false := by
  have takes := ((executes_iff s p seq).1 executes).1
  simp only [State.takesExchange, Bool.and_eq_true, Bool.not_eq_true'] at takes
  exact takes.1

/-- A renewal keeps the cause with which a lease expires. -/
theorem expiryCause_of_terms (terms : l.term = .timed n ∧ term = .timed (if time = 0 then n else time) ∨
    ∃ w, l.term = .watched n w ∧ term = .watched (if time = 0 then n else time) w) :
    term.expiryCause = l.term.expiryCause := by
  rcases terms with ⟨old, new⟩ | ⟨w, old, new⟩ <;> rw [old, new] <;> rfl

variable (executes : s.executes p seq = true) (running : s.partState = .run) (named : s.named h = some l)
  (holder : l.holder = p) (held : l.state = .held (some c)) (fits : time ≤ 65535)
  (terms : l.term = .timed n ∧ term = .timed (if time = 0 then n else time) ∨
    ∃ w, l.term = .watched n w ∧ term = .watched (if time = 0 then n else time) w)
include executes running named holder held fits terms

/-- R45: a renewal and the LEASE_EXPIRY behind it. -/
theorem exec_renew_expiry :
    ∃ t u, exec (.renew p seq ([byteOf h.slot.val, h.generation] ++ bigEndian 2 time)) s = .next t ∧
      exec (.leaseExpiry h.slot) t = .next u ∧ u.resetHeld = false ∧ u.lease h.slot = some { l with
        term := term
        state := Countdown.afterExpiry { left := if time = 0 then n else time, since := c.markOnLoading } term } := by
  obtain ⟨t, renewed, stays, now⟩ := exec_renew_countdown executes running named holder held fits terms
  have released : t.resetHeld = false := stays.trans (released_of_executes executes)
  exact ⟨t, _, renewed, exec_leaseExpiry released h.slot, (leaseSide_leaseExpiry h.slot t).resetHeld.trans released,
    lease_of_named (named_takeExpiry_self now rfl)⟩

/-- R45: a claim ahead of the expiry due at the coming tick keeps the lease over it. -/
theorem exec_renew_expiry_tick_ahead (ahead : c.markOnLoading = .ahead ∨ c.markOnLoading = .passed) :
    ∃ t u v, exec (.renew p seq ([byteOf h.slot.val, h.generation] ++ bigEndian 2 time)) s = .next t ∧
      exec (.leaseExpiry h.slot) t = .next u ∧ exec .tick u = .next v ∧ v.lease h.slot = some { l with
        term := term
        state := .held (some
          { left := if (if time = 0 then n else time) ≤ 1 then (if time = 0 then n else time)
              else (if time = 0 then n else time) - 1
            since := .untouched }) } := by
  obtain ⟨t, u, renewed, expiry, released, lease⟩ := exec_renew_expiry executes running named holder held fits terms
  rw [afterExpiry_behind ahead] at lease
  obtain ⟨v, tick, after⟩ := exec_tick_countdown released lease rfl
  rw [afterTick_passed] at after
  exact ⟨t, u, v, renewed, expiry, tick, after⟩

/-- R30: any other loading of n expires at the n-th tick, behind a LEASE_EXPIRY too. -/
theorem exec_renew_expiry_tick_loaded (loaded : c.markOnLoading = .loaded) :
    ∃ t u v, exec (.renew p seq ([byteOf h.slot.val, h.generation] ++ bigEndian 2 time)) s = .next t ∧
      exec (.leaseExpiry h.slot) t = .next u ∧ exec .tick u = .next v ∧ v.lease h.slot =
        if (if time = 0 then n else time) ≤ 1 then some { l with term := term, state := .ended l.term.expiryCause }
        else some { l with term := term, state := .held (some
          { left := (if time = 0 then n else time) - 1, since := .untouched }) } := by
  obtain ⟨t, u, renewed, expiry, released, lease⟩ := exec_renew_expiry executes running named holder held fits terms
  rw [afterExpiry_first (.inr loaded), expiryCause_of_terms terms] at lease
  by_cases due : (if time = 0 then n else time) ≤ 1
  · rw [if_pos due] at lease ⊢
    obtain ⟨v, tick, after⟩ := exec_tick_ended released lease rfl
    exact ⟨t, u, v, renewed, expiry, tick, after⟩
  · rw [if_neg due] at lease ⊢
    obtain ⟨v, tick, after⟩ := exec_tick_countdown released lease rfl
    rw [afterTick_loaded (since := .untouched) (by decide), if_neg due] at after
    exact ⟨t, u, v, renewed, expiry, tick, after⟩

/-- R30: a loading of n expires at the n-th tick. -/
theorem exec_renew_tick (first : c.since ≠ .passed) :
    ∃ t v, exec (.renew p seq ([byteOf h.slot.val, h.generation] ++ bigEndian 2 time)) s = .next t ∧
      exec .tick t = .next v ∧ v.lease h.slot =
        if (if time = 0 then n else time) ≤ 1 then some { l with term := term, state := .ended l.term.expiryCause }
        else some { l with term := term, state := .held (some
          { left := (if time = 0 then n else time) - 1, since := .untouched }) } := by
  obtain ⟨t, renewed, stays, now⟩ := exec_renew_countdown executes running named holder held fits terms
  obtain ⟨v, tick, after⟩ :=
    exec_tick_countdown (stays.trans (released_of_executes executes)) (lease_of_named now) rfl
  have mark : c.markOnLoading ≠ .passed := by
    rw [markOnLoading_eq]
    split_ifs
    exacts [by decide, by decide, first]
  rw [afterTick_loaded mark, expiryCause_of_terms terms] at after
  refine ⟨t, v, renewed, tick, after.trans ?_⟩
  by_cases due : (if time = 0 then n else time) ≤ 1
  · rw [if_pos due, if_pos due]
  · rw [if_neg due, if_neg due]

end

/-- Where the LEASE_EXPIRY of another slot comes first, a loading comes ahead of the expiry that is due. -/
theorem markOnLoading_settle (due : c.left ≤ 1 ∨ c.since = .ahead ∨ c.since = .passed) :
    c.settle.markOnLoading = .ahead ∨ c.settle.markOnLoading = .passed := by
  obtain ⟨left, since⟩ := c
  cases since <;> simp_all [markOnLoading_eq, Countdown.settle]

/-! ### The loadings -/

theorem load_some (c : Countdown) (time : Option Nat) : LeaseState.load time (.held (some c)) = .held (time.map fun n =>
    { left := n, since := if c.since = .untouched then (if c.left ≤ 1 then .ahead else .loaded) else c.since }) := by
  rw [← markOnLoading_eq]
  rfl

theorem reload_grant (l : Lease) : l.grant.reload = l.grant := by
  unfold Lease.grant Lease.reload
  cases l.term.time <;> rfl

/-- R106: of two loadings with other terms the last decides, where both terms have a time or neither has. -/
theorem reload_renew (l : Lease) (time : Option Nat) : l.reload.renew time = (l.renew time).reload := by
  rw [Lease.renew, Lease.renew, reload_of_reload]
  obtain ⟨holder, domain, term, wanted, granted, state, tag, origin⟩ := l
  cases term with
  | standing => cases state <;> rfl
  | _ => cases time <;> simp only [Lease.reload, Term.renewed, Term.time, load_load]

/-- Settles O49: each event is followed at the lease of its slot (`exec_renew_countdown`, `named_takeExpiry_self`,
`exec_tick_countdown`), in each of the orders. -/
theorem claimAndExpiryAtOneTickEndAsR45Says : Obligations.ClaimAndExpiryAtOneTickEndAsR45Says := by
  refine ⟨fun s p seq h l c n time term released executes running named holder held fits terms => ?_, fun _ => rfl,
    load_some, fun l => ⟨reload_grant l, reload_of_reload l, reload_renew l⟩, fun s i l n released lease => ?_⟩
  · refine ⟨fun ahead => ?_, fun loaded => ?_, exec_renew_tick executes running named holder held fits terms,
      fun due j other => ?_, fun due first => ?_⟩
    · refine exec_renew_expiry_tick_ahead executes running named holder held fits terms ?_
      rcases ahead with ⟨first, due⟩ | again | again <;> simp [markOnLoading_eq, *]
    · refine exec_renew_expiry_tick_loaded executes running named holder held fits terms ?_
      rcases loaded with ⟨first, more⟩ | again
      · exact markOnLoading_not_due first more
      · simp [markOnLoading_eq, again]
    · have side := leaseSide_leaseExpiry j s
      have settled : (takeExpiry j (settleMarks s)).named h = some { l with state := .held (some c.settle) } := by
        rw [named_takeExpiry_other other.symm, named_settleMarks, named, Option.map_some, held, settle_held]
        rfl
      obtain ⟨t, u, v, renewed⟩ := exec_renew_expiry_tick_ahead ((side.executes p seq).trans executes)
        (side.partState.trans running) settled holder rfl fits terms (markOnLoading_settle due)
      exact ⟨_, t, u, v, exec_leaseExpiry released j, renewed⟩
    · have side := leaseSide_leaseExpiry h.slot s
      have ended := named_takeExpiry_self named held
      rw [show c.afterExpiry l.term = .ended l.term.expiryCause from (afterExpiry_first first _).trans (if_pos due)] at ended
      exact ⟨_, exec_leaseExpiry released h.slot, lease_of_named ended,
        exec_renew_in_run ((side.executes p seq).trans executes) (side.partState.trans running) rfl
          (doRenew_ended (ownLease_eq ended holder) rfl _)⟩
  · refine ⟨fun held => ?_, fun held => ?_⟩
    · have settled : (settleMarks s).lease i = some { l with state := .held (some { left := n, since := .ahead }) } := by
        rw [lease_settleMarks, lease, Option.map_some, held]
        rfl
      rw [exec_leaseExpiry released, takeExpiry_behind settled rfl rfl, setLease_eq_withLease, settleMarks_eq_withSettled]
    · obtain ⟨t, tick, after⟩ := exec_tick_countdown released lease held
      exact ⟨t, tick, by rw [after, afterTick_passed]⟩

end Sys2Proof.Machine
end

section
/-! What an input change that a state does not act on leaves, and an expiry or a report that is not due (R30, R51, R57,
R59, R67, R68). -/

namespace Sys2Proof.Machine

section
variable {s : State} {d : Managed} {i : SlotId}

/-! ### The domain inputs -/

theorem exec_pgoodDeasserted_ignored (ignored : (s.engine d).state.supervisesPgood = false ∨ s.resetHeld = true) :
    exec (.pgoodDeasserted d) s = .next (s.setPgood d false) := by
  have run : exec (.pgoodDeasserted d) s = .next
      (if s.resetHeld = true then s.setPgood d false else losePgood d (s.setPgood d false)) := rfl
  rw [run]
  split
  · rfl
  · have unsupervised := ignored.resolve_right ‹_›
    rw [losePgood, if_neg (by simp [unsupervised])]

theorem exec_pgoodAsserted_ignored (ignored : (s.engine d).state ≠ .railUp ∨ s.resetHeld = true) :
    exec (.pgoodAsserted d) s = .next (s.setPgood d true) := by
  have run : exec (.pgoodAsserted d) s = .next
      (if s.resetHeld = true then s.setPgood d true else takePgood d (s.setPgood d true)) := rfl
  rw [run]
  split
  · rfl
  · have elsewhere := ignored.resolve_right ‹_›
    rw [takePgood, if_neg (by simp [elsewhere])]

theorem exec_ckokAsserted_ignored
    (ignored : ((s.engine d).state ≠ .clockUp ∨ s.ckokSampled d = false) ∨ s.resetHeld = true) :
    exec (.ckokAsserted d) s = .next (s.setCkok d true) := by
  have run : exec (.ckokAsserted d) s = .next
      (if s.resetHeld = true then s.setCkok d true else takeCkok d (s.setCkok d true)) := rfl
  have sampled : (s.setCkok d true).ckokSampled = s.ckokSampled := rfl
  rw [run]
  split
  · rfl
  · rw [takeCkok, sampled]
    rcases ignored.resolve_right ‹_› with elsewhere | unsampled
    · rw [if_neg (by simp [elsewhere])]
    · rw [if_neg (by simp [unsampled])]

theorem exec_ckokDeasserted_ignored
    (ignored : ((s.engine d).state.supervisesCkok = false ∨ s.ckokSampled d = false) ∨ s.resetHeld = true) :
    exec (.ckokDeasserted d) s = .next (s.setCkok d false) := by
  have run : exec (.ckokDeasserted d) s = .next
      (if s.resetHeld = true then s.setCkok d false else loseCkok d (s.setCkok d false)) := rfl
  have sampled : (s.setCkok d false).ckokSampled = s.ckokSampled := rfl
  rw [run]
  split
  · rfl
  · rw [loseCkok, sampled]
    rcases ignored.resolve_right ‹_› with unsupervised | unsampled
    · rw [if_neg (by simp [unsupervised])]
    · rw [if_neg (by simp [unsampled])]

theorem supervisesPgood_false_of {e : EngineState}
    (h : e ∈ [EngineState.off, .waitParent, .waitBudget, .railUp, .draining, .fault]) : e.supervisesPgood = false := by
  revert h
  cases e <;> decide

theorem supervisesCkok_false_of {e : EngineState} (h : e ∉ [EngineState.run, .boostUp, .boost, .boostDown]) :
    e.supervisesCkok = false := by
  revert h
  cases e <;> decide

/-- R3: a domain without a clock level has no CKOK. -/
theorem ckokSampled_false (low : ∀ r ∈ s.record d, r.maxLevel.num ≤ 1) : s.ckokSampled d = false := by
  unfold State.ckokSampled
  split
  · rename_i r record
    exact decide_eq_false (Nat.not_lt.2 (low r record))
  · rfl

/-! ### Expiries and reports that are not due -/

/-- R51: an expiry that is not due changes nothing. -/
theorem onExpiry_not_due {st : EngineState} (late : (s.engine d).state ≠ st ∨ (s.engine d).timer ≠ some 0)
    (effect : State → State) : onExpiry st d effect s = s := by
  have not : s.expiryDue d st = false := by
    rcases late with elsewhere | running <;> simp [State.expiryDue, *]
  rw [onExpiry, if_neg (by simp [not])]

theorem exec_leaseExpiry_not_due (late : ∀ l ∈ s.lease i, ∀ c, l.state = .held (some c) →
    c.since = .passed ∨ (c.since ≠ .ahead ∧ 1 < c.left)) :
    exec (.leaseExpiry i) s = .next (if s.resetHeld = true then s else withSettled s) := by
  have run : exec (.leaseExpiry i) s = .next (if s.resetHeld = true then s else takeExpiry i (settleMarks s)) := rfl
  rw [run, ← settleMarks_eq_withSettled]
  suffices still : takeExpiry i (settleMarks s) = settleMarks s by rw [still]
  have settled := lease_settleMarks s i
  cases lease : s.lease i with
  | none =>
    rw [lease] at settled
    exact takeExpiry_not_held (by simp [settled])
  | some l =>
    rw [lease, Option.map_some] at settled
    by_cases held : ∃ c, l.state = .held (some c)
    · obtain ⟨c, held⟩ := held
      rw [held, settle_held, Option.map_some] at settled
      have ahead : c.settle.since = .ahead ↔ c.since = .ahead := settle_since (by decide) (by decide)
      have passed : c.settle.since = .passed ↔ c.since = .passed := settle_since (by decide) (by decide)
      have left : c.settle.left = c.left := rfl
      rcases late l lease c held with behind | ⟨first, more⟩
      · have first : c.settle.since ≠ .ahead := by rw [passed.2 behind]; decide
        exact takeExpiry_not_due settled rfl first (by simp [Countdown.expires, passed.2 behind])
      · exact takeExpiry_not_due settled rfl (mt ahead.1 first) (by simp [Countdown.expires, left, more])
    · refine takeExpiry_not_held fun k there c state => held ?_
      cases settled.symm.trans there
      cases before : l.state with
      | held countdown =>
        rw [before] at state
        cases countdown with
        | none => cases state
        | some c => exact ⟨c, rfl⟩
      | _ => rw [before] at state; cases state

theorem exec_report_none (none : s.report d = none) : exec (.levelReachedReport d) s = .next s := by
  have run : exec (.levelReachedReport d) s = .next (if s.resetHeld = true then s else takeReport d s) := rfl
  have nothing : takeReport d s = s := by simp only [takeReport, none]
  rw [run, nothing, ite_self]

end

/-- Settles O44: each input event is taken in its own states alone, and each expiry when it is due. -/
theorem eventsNotDueChangeNothing : Obligations.EventsNotDueChangeNothing := by
  intro s d i
  have expiry {c : Instr} {st : EngineState} {effect : State → State}
      (run : exec c s = .next (onExpiry st d effect s))
      (late : (s.engine d).state ≠ st ∨ (s.engine d).timer ≠ some 0) : exec c s = .next s := by
    rw [run, onExpiry_not_due late]
  exact ⟨fun ignored => exec_pgoodDeasserted_ignored (ignored.imp_left supervisesPgood_false_of),
    fun held => exec_pgoodAsserted_ignored (.inr held), fun ignored => exec_ckokAsserted_ignored (ignored.imp_left .inl),
    fun ignored => exec_ckokDeasserted_ignored (ignored.imp_left fun out => .inl (supervisesCkok_false_of out)),
    fun low => ⟨exec_ckokAsserted_ignored (.inl (.inr (ckokSampled_false low))),
      exec_ckokDeasserted_ignored (.inl (.inr (ckokSampled_false low)))⟩,
    expiry rfl, expiry rfl, expiry rfl, expiry rfl, expiry rfl, expiry rfl, expiry rfl, exec_leaseExpiry_not_due,
    exec_report_none⟩

end Sys2Proof.Machine
end

section
/-! What an event of one engine leaves when it ends, and the timed steps that end in an arrival (R50 to R53, R57 to R61,
R67). -/

namespace Sys2Proof.Machine

/-! ### The end of an event of one engine -/

/-- The end of an event changes no engine, no report, no free units and no place in the ramp queue. -/
theorem reads_closeEvent (order : List Managed) (old new : State) :
    (closeEvent order old new).reports = new.reports ∧ (closeEvent order old new).freeUnits = new.freeUnits ∧
      (closeEvent order old new).rampQueue = new.rampQueue := by
  rw [closeEvent_eq]
  exact ⟨rfl, rfl, rfl⟩

theorem report_closeEvent (order : List Managed) (old new : State) :
    (closeEvent order old new).report = new.report := by
  rw [closeEvent_eq]
  rfl

/-- R182: an event that leaves its engine up leaves the part state. -/
theorem partState_closeEvent_of_up (order : List Managed) {old new : State} {d : Managed}
    (up : (new.engine d).down = false) : (closeEvent order old new).partState = new.partState := by
  rw [closeEvent_of_up order up]

theorem engineSide.partState {s t : State} (side : engineSide s t) : t.partState = s.partState := by
  obtain ⟨_, _, _, _, rfl⟩ := side
  rfl

/-- R50, R113, R182: the event of an engine that moved engines alone. -/
theorem engineFrame_closeEvent (d : Managed) {s u : State} (side : engineSide s u) :
    engineFrame d s (closeEvent [d] s u) := by
  have whole := closeEvent_frame [d] side.moveSide
  obtain ⟨_, _, _, _, moved⟩ := side
  have pins : u.pinLog = s.pinLog := by rw [moved]
  refine ⟨?_, fun k => ?_⟩
  · have ⟨reports, units, queue⟩ := reads_closeEvent [d] s u
    have wakes : (closeEvent [d] s u).wakes = Vector.ofFn (refreshedWake s (closeEvent [d] s u)) := by
      conv_lhs => rw [whole]
    rw [engines_closeEvent, reports, units, queue, wakes]
    conv_lhs => rw [whole, pins]
    rw [moved]
  · have here : (closeEvent [d] s u).wake k = (Vector.ofFn (refreshedWake s (closeEvent [d] s u)))[k] := by
      conv_lhs => rw [whole]
      rfl
    rw [here]
    exact Vector.getElem_ofFn k.isLt

section
variable {s u t : State} {d : Managed} {r : DomainRecord} {level : Level} {c : ChainEnd}

theorem arrivesAndGoesOn_congr (engine : t.engine = u.engine) (report : t.report = u.report)
    (queue : t.rampQueue = u.rampQueue) (h : arrivesAndGoesOn s u d r level) : arrivesAndGoesOn s t d r level := by
  unfold arrivesAndGoesOn engineAt released at h ⊢
  rwa [engine, report, queue]

theorem goesOn_congr (engine : t.engine = u.engine) (report : t.report = u.report)
    (queue : t.rampQueue = u.rampQueue) (h : goesOn s u d r level) : goesOn s t d r level := by
  unfold goesOn engineAt released at h ⊢
  rwa [engine, report, queue]

/-- R53: a domain that has gone on from a level with its rail on is up. -/
theorem up_of_engineAt (up : level ≠ .off) {target : Level} {ckok : Bool}
    (here : engineAt t d (s.engine d) (chainFrom r target ckok level)) : (t.engine d).down = false := by
  rw [here]
  exact down_of_stands (stands_of_canFail (chainFrom_canFail up r target ckok))

/-- R52: the whole event in which a domain arrives. -/
theorem arrivesAt_closeEvent (up : level ≠ .off) (side : engineSide s u) (arrives : arrivesAndGoesOn s u d r level) :
    arrivesAt s (closeEvent [d] s u) d r level := by
  have ⟨_, _, queue⟩ := reads_closeEvent [d] s u
  refine ⟨arrivesAndGoesOn_congr (engine_closeEvent _ s u) (report_closeEvent _ s u) queue arrives, ?_,
    engineFrame_closeEvent d side⟩
  have here : engineAt u d (s.engine d) (chainFrom r (s.target d) (s.ckokSeen d) level) := arrives.1
  rw [partState_closeEvent_of_up [d] (up_of_engineAt up here), side.partState]

/-- R52, R53: an arrival, the whole event. -/
theorem arrivesAt_arrive (up : level ≠ .off) (fits : s.fits d r level) (stands : (s.engine d).state.stands) :
    arrivesAt s (closeEvent [d] s (arrive d level s)) d r level ∧
      (closeEvent [d] s (arrive d level s)).freeUnits = s.freeUnits := by
  have comes := comesTo_arrive up fits stands
  have ⟨_, units, _⟩ := reads_closeEvent [d] s (arrive d level s)
  exact ⟨arrivesAt_closeEvent up comes.side comes.arrivesAndGoesOn, units.trans comes.units⟩

/-! ### The end of SETTLE -/

/-- Free units have no part in where a domain comes to. -/
theorem arrivesAndGoesOn_of_units {free : Nat} (h : arrivesAndGoesOn { s with freeUnits := free } t d r level) :
    arrivesAndGoesOn s t d r level := by
  have releases : ∀ levels, State.releases { s with freeUnits := free } d levels = s.releases d levels := fun levels => by
    rw [releases_after (s := s) (t := { s with freeUnits := free }) (gone := []) rfl fun e _ => by simp [State.engine]]
    simp
  obtain ⟨engine, children, reports⟩ := h
  rw [releases] at children
  exact ⟨engine, children, reports⟩

/-- R58, R77: SETTLE ends, from a state that holds the weight. -/
theorem arrivesAt_endSettle (fits : s.fits d r .retain) (holds : (s.engine d).state.holdsWeight = true)
    (stands : (s.engine d).state.stands) :
    arrivesAt s (closeEvent [d] s (endSettle d s)) d r .retain ∧
      (closeEvent [d] s (endSettle d s)).freeUnits = s.freeUnits + r.weight := by
  have ⟨record, _⟩ := fits
  have weight : s.heldWeight d = r.weight := by
    rw [heldWeight_of_state rfl, if_pos holds, weight_of_record record]
  have returned : (returnWeight d s).freeUnits = s.freeUnits + r.weight := congrArg (s.freeUnits + ·) weight
  have fits' : (returnWeight d s).fits d r .retain := fits
  have comes := comesTo_arrive (level := .retain) nofun fits' stands
  have ⟨_, units, _⟩ := reads_closeEvent [d] s (endSettle d s)
  exact ⟨arrivesAt_closeEvent nofun ((engineSide_returnWeight d s).trans comes.side)
    (arrivesAndGoesOn_of_units comes.arrivesAndGoesOn), units.trans (comes.units.trans returned)⟩

/-! ### The inputs -/

theorem pgoodSampled_of_record (record : s.record d = some r) : s.pgoodSampled d = true := by
  simp [State.pgoodSampled, record]

/-- R57: PGOOD in RAIL_UP. -/
theorem exec_pgoodAsserted (running : s.resetHeld = false) (at_ : (s.engine d).state = .railUp)
    (record : s.record d = some r) :
    exec (.pgoodAsserted d) s = .next (closeEvent [d] (s.setPgood d true) (seePgood d (s.setPgood d true))) := by
  have run : exec (.pgoodAsserted d) s = .next
      (if s.resetHeld = true then s.setPgood d true else takePgood d (s.setPgood d true)) := rfl
  have sampled : (s.setPgood d true).pgoodSampled d = true := pgoodSampled_of_record (s := s.setPgood d true) record
  rw [run, if_neg (by simp [running]), takePgood, if_pos ⟨at_, sampled⟩]

/-- R59: CKOK in CLOCK_UP. -/
theorem exec_ckokAsserted (running : s.resetHeld = false) (at_ : (s.engine d).state = .clockUp)
    (record : s.record d = some r) (above : Level.retain.num < r.maxLevel.num) :
    exec (.ckokAsserted d) s = .next (closeEvent [d] (s.setCkok d true) (arrive d .run (s.setCkok d true))) := by
  have run : exec (.ckokAsserted d) s = .next
      (if s.resetHeld = true then s.setCkok d true else takeCkok d (s.setCkok d true)) := rfl
  have sampled : (s.setCkok d true).ckokSampled d = true := by simp [State.ckokSampled, record, above]
  rw [run, if_neg (by simp [running]), takeCkok, if_pos ⟨at_, sampled⟩]

/-- R58: SETTLE begins, the whole event. -/
theorem seePgood_settles (record : s.record d = some r) (settles : 0 < r.settle) :
    let t := closeEvent [d] s (seePgood d s)
    t.engine d = { s.engine d with state := .settle, timer := some r.settle } ∧
      (∀ e, e ≠ d → t.engine e = s.engine e) ∧ t.reports = s.reports ∧ t.freeUnits = s.freeUnits ∧
      t.rampQueue = s.rampQueue ∧ t.partState = s.partState ∧ engineFrame d s t := by
  rw [seePgood_of_record record, if_neg settles.ne']
  have side := engineSide_moveEngine d .settle (some r.settle) s
  have own := engine_moveEngine_self s d .settle (some r.settle)
  have ⟨reports, units, queue⟩ := reads_closeEvent [d] s (s.moveEngine d .settle (some r.settle))
  have up : ((s.moveEngine d .settle (some r.settle)).engine d).down = false := by rw [own]; rfl
  refine ⟨?_, fun e other => ?_, reports, units, queue, partState_closeEvent_of_up [d] up, engineFrame_closeEvent d side⟩
  · rw [engine_closeEvent, own]
  · rw [engine_closeEvent, engine_moveEngine_ne s other]

end

/-- Settles O41: PGOOD in RAIL_UP begins SETTLE or ends it at once, and every other of these steps ends in an arrival, whose
event is that of `arrivesAt_arrive`. -/
theorem timedStepsArrive : Obligations.TimedStepsArrive := by
  intro s d r running u
  have stands {st : EngineState} (at_ : (s.engine d).state = st) (up : st.stands) : (s.engine d).state.stands := at_ ▸ up
  refine ⟨fun elsewhere => exec_pgoodAsserted_ignored (.inl elsewhere), fun at_ fits settles => ?_,
    fun at_ fits none => ?_, fun at_ expired fits => ?_, fun at_ fits => ?_, fun at_ expired fits => ?_,
    fun at_ expired fits => ?_⟩
  · have ⟨record, _⟩ := fits
    exact ⟨_, exec_pgoodAsserted running at_ record, seePgood_settles (s := s.setPgood d true) record settles⟩
  · have ⟨record, _⟩ := fits
    have instant : seePgood d (s.setPgood d true) = endSettle d (s.setPgood d true) := by
      rw [seePgood_of_record (s := s.setPgood d true) record, if_pos none]
    refine ⟨_, exec_pgoodAsserted running at_ record, ?_⟩
    rw [instant]
    exact arrivesAt_endSettle (s := s.setPgood d true) fits (congrArg EngineState.holdsWeight at_)
      (stands at_ ⟨nofun, nofun⟩)
  · exact ⟨_, exec_expiry (c := .settleExpiry d) rfl running at_ expired,
      arrivesAt_endSettle fits (congrArg EngineState.holdsWeight at_) (stands at_ ⟨nofun, nofun⟩)⟩
  · have ⟨record, _, above, _⟩ := fits
    exact ⟨_, exec_ckokAsserted running at_ record above,
      arrivesAt_arrive (s := s.setCkok d true) nofun fits (stands at_ ⟨nofun, nofun⟩)⟩
  · exact ⟨_, exec_expiry (c := .boostUpExpiry d) rfl running at_ expired,
      arrivesAt_arrive nofun fits (stands at_ ⟨nofun, nofun⟩)⟩
  · exact ⟨_, exec_expiry (c := .boostDownExpiry d) rfl running at_ expired,
      arrivesAt_arrive nofun fits (stands at_ ⟨nofun, nofun⟩)⟩

end Sys2Proof.Machine
end

section
/-! The arrival at OFF and the rise that follows it, the ends of drains, and the step-begin event (R52 to R56, R61 to R64,
R88, R182). -/

namespace Sys2Proof.Machine

/-! ### The target of a domain whose own engine moves -/

/-- R13, R14: the target of a domain does not read its own engine, but for a fault. -/
theorem Turns.target {s t : State} {d : Managed} (turns : Turns d s t) (side : moveSide s t)
    (fault : (t.engine d).state = .fault ↔ (s.engine d).state = .fault) : t.target d = s.target d := by
  have records := turns.records
  have faults : ∀ a, (t.engine a).state = .fault ↔ (s.engine a).state = .fault := by
    intro a
    by_cases same : a = d
    · subst a; exact fault
    · rw [turns.others a same]
  have faulted : ∀ e, t.faultAtOrAbove e = s.faultAtOrAbove e := fun e => Bool.eq_iff_iff.2
    ⟨faultAtOrAbove_mono records fun a => (faults a).1, faultAtOrAbove_mono records.symm fun a => (faults a).2⟩
  have leases : t.list = s.list ∧ t.lease = s.lease := by obtain ⟨_, _, _, _, _, rfl⟩ := side; exact ⟨rfl, rfl⟩
  suffices from_ : ∀ e, d ≤ e → t.target e = s.target e from from_ d le_rfl
  intro e
  induction e using leavesUp with
  | each e ih =>
    intro notAbove
    have holds : ∀ c ∈ s.children (managedDomain e),
        (t.target c.1 != .off || !(t.engine c.1).down) = (s.target c.1 != .off || !(s.engine c.1).down) := by
      intro c child
      have lower := lt_of_mem_children child
      have below := notAbove.trans_lt lower
      rw [ih c.1 lower below.le, turns.others c.1 below.ne']
    rw [target_eq, target_eq, faulted, children_congr records, leases.1, leases.2, List.filter_congr holds]

/-! ### The rise from OFF -/

section
variable {s : State} {d : Managed}

/-- R54: where a rise from OFF takes the engine, and its place in the ramp queue. -/
theorem reads_beginRise (s : State) (d : Managed) :
    (beginRise d s).engine d = { s.engine d with state := risesTo s d, timer := none } ∧
      (beginRise d s).rampQueue = (if risesTo s d = .waitBudget then s.rampQueue ++ [d] else s.rampQueue) ∧
      (∀ e, e ≠ d → (beginRise d s).engine e = s.engine e) ∧ (beginRise d s).reports = s.reports ∧
      (beginRise d s).freeUnits = s.freeUnits := by
  have waits : (s.moveEngine d .waitParent none).engine d = { s.engine d with state := .waitParent, timer := none } :=
    engine_moveEngine_self s d _ _
  unfold beginRise risesTo
  cases s.place d with
  | none => exact ⟨waits, rfl, fun e other => engine_moveEngine_ne s other _ _, rfl, rfl⟩
  | some place =>
    dsimp only
    split
    · refine ⟨?_, rfl, fun e other => ?_, rfl, rfl⟩
      · rw [engine_enterQueue_self, waits]
      · rw [engine_enterQueue_ne _ other, engine_moveEngine_ne s other]
    · exact ⟨waits, rfl, fun e other => engine_moveEngine_ne s other _ _, rfl, rfl⟩

theorem risesTo_stands (s : State) (d : Managed) : (risesTo s d).stands := by
  unfold risesTo
  split
  · split <;> exact ⟨nofun, nofun⟩
  · exact ⟨nofun, nofun⟩

/-- R54: what a domain rises to does not read its own engine. -/
theorem risesTo_of_turns {t : State} (turns : Turns d s t) : risesTo t d = risesTo s d := by
  unfold risesTo
  rw [place_congr turns.records]
  cases place : s.place d with
  | none => rfl
  | some place' =>
    have parent : t.assured place'.1 = s.assured place'.1 := by
      unfold State.assured
      cases managed : asManaged place'.1 with
      | none => rfl
      | some m =>
        have above : m < d := by
          refine parent_lt (s := s) (floor := place'.2) ?_
          rw [← asManaged_eq_some.1 managed]
          exact place
        dsimp only
        rw [turns.others m above.ne]
    dsimp only
    rw [parent]

/-! ### The arrival at OFF -/

theorem beginStep_off (arrive : Level → State → State) (d : Managed) (s : State) :
    beginStep arrive d .off s = if s.target d ≠ .off ∧ s.record d ≠ none then beginRise d s else s := by
  unfold beginStep
  split
  · rename_i undefined
    rw [if_neg fun both => both.2 undefined]
  · rename_i r record
    simp only [record, ne_eq, reduceCtorEq, not_false_eq_true, and_true]

/-- R52, R54: an arrival at OFF hands its report, and begins a rise at once when the target is above OFF. -/
theorem arrive_off (ranges : recordLaw s) (sound : (s.engine d).state ≠ .fault) :
    arrive d .off s = if s.target d ≠ .off ∧ s.record d ≠ none then beginRise d (arrived d .off s)
      else arrived d .off s := by
  have turns := turns_arrived d .off s
  have fault : ((arrived d .off s).engine d).state = .fault ↔ (s.engine d).state = .fault := by
    rw [engine_arrived_self]
    exact iff_of_false nofun sound
  have target := turns.target ⟨_, _, _, _, _, rfl⟩ fault
  unfold arrive Config.chainBound arriveWithin
  rw [enterLevel_off ranges, beginStep_off, target, turns.records]

/-- R52, R54, R182: the whole event of an arrival at OFF. -/
theorem arrivesAtOff_arrive (ranges : recordLaw s) (sound : (s.engine d).state ≠ .fault) :
    arrivesAtOff s (closeEvent [d] s (arrive d .off s)) d := by
  have frame := engineFrame_closeEvent d (engineSide_arrive d .off s)
  have ⟨reports, units, queue⟩ := reads_closeEvent [d] s (arrive d .off s)
  have engine := engine_closeEvent [d] s (arrive d .off s)
  have report := report_closeEvent [d] s (arrive d .off s)
  have way := arrive_off ranges sound
  have turns := turns_arrived d .off s
  have here : (arrived d .off s).engine d = { s.engine d with state := .off, timer := none } := engine_arrived_self s d .off
  have ⟨risen, queued, others, handed, kept⟩ := reads_beginRise (arrived d .off s) d
  rw [risesTo_of_turns turns] at risen queued
  refine ⟨fun down => ?_, fun up known => ?_, fun e other => ?_, fun e => ?_, ?_, frame⟩
  · rw [if_neg (by simp [down])] at way
    rw [engine, queue, way]
    exact ⟨here, rfl⟩
  · rw [if_pos ⟨up, known⟩] at way
    rw [engine, queue, way, risen, queued, here]
    exact ⟨rfl, rfl⟩
  · rw [engine, way]
    split
    · rw [others e other, turns.others e other]
    · rw [turns.others e other]
  · rw [report, way, ← report_arrived]
    split
    · simp only [State.report, handed]
    · rfl
  · rw [units, way]
    split
    · rw [kept]; rfl
    · rfl

/-! ### The ends of drains -/

/-- R64: the drain-end check with PGOOD down. -/
theorem endDrain_unpowered (down : s.pgood[d] = false) :
    endDrain d s = closeEvent [d] s (arrive d .off s) := by
  have unseen : s.pgoodSeen d = false := by simp [State.pgoodSeen, down]
  rw [endDrain, if_neg (by simp [unseen])]

/-- Settles O42: a drain with PGOOD down ends in the arrival at OFF (`arrivesAtOff_arrive`), and a fault drain sets its
flag. -/
theorem drainsEndInOffOrStay : Obligations.DrainsEndInOffOrStay := by
  intro s d r running ranges record expired
  refine ⟨fun at_ down => ?_, fun at_ => ?_⟩
  · refine ⟨_, exec_expiry (c := .drainEnd d) rfl running at_ expired, ?_⟩
    rw [endDrain_unpowered down]
    exact arrivesAtOff_arrive ranges (by rw [at_]; nofun)
  · have ⟨reports, units, queue⟩ := reads_closeEvent [d] s (completeDrain d s)
    refine ⟨_, exec_expiry (c := .faultDrainExpiry d) rfl running at_ expired, ?_, fun e other => ?_, reports, units, queue,
      engineFrame_closeEvent d ⟨_, _, _, _, rfl⟩⟩
    · rw [engine_closeEvent, completeDrain, engine_setEngine_self]
    · rw [engine_closeEvent, completeDrain, engine_setEngine_ne s other]

/-! ### The step-begin event -/

theorem exec_stepBegin (running : s.resetHeld = false) :
    exec (.stepBegin d) s = .next (closeEvent [d] s (takeStep d s)) := by
  have run : exec (.stepBegin d) s = .next (if s.resetHeld = true then s else closeEvent [d] s (takeStep d s)) := rfl
  rw [run, if_neg (by simp [running])]

/-- R53: at its target a domain begins no step. -/
theorem beginStep_of_target {arrive : Level → State → State} {level : Level} (there : s.target d = level) :
    beginStep arrive d level s = s := by
  unfold beginStep
  split
  · rfl
  · cases level <;> simp [there, Level.num]

theorem takeStep_of_level {level : Level} (at_ : (s.engine d).state = level.engineState) :
    takeStep d s = beginStep (arrive d) d level s := by
  unfold takeStep
  rw [at_]
  cases level <;> rfl

/-- R53, R55, R56: with no step due, a step-begin event begins none. -/
theorem takeStep_not_due (still : s.stepDue d = false) : takeStep d s = s := by
  have level {level : Level} (at_ : (s.engine d).state = level.engineState) (there : s.target d = level) :
      takeStep d s = s := by rw [takeStep_of_level at_, beginStep_of_target there]
  unfold State.stepDue at still
  cases at_ : (s.engine d).state <;> rw [at_] at still
  case off => exact level (level := .off) at_ (by simpa using still)
  case retain => exact level (level := .retain) at_ (by simpa using still)
  case run => exact level (level := .run) at_ (by simpa using still)
  case boost => exact level (level := .boost) at_ (by simpa using still)
  case waitParent | waitBudget =>
    have wanted : s.target d ≠ .off := by simpa using still
    unfold takeStep
    rw [at_]
    exact if_neg wanted
  all_goals
    unfold takeStep
    rw [at_]

/-- R50, R113, R182: the end of an event that did nothing does nothing in a lawful state. -/
theorem closeEvent_self (detectors : detectorLaw s) (stopping : stoppingLaw s) : closeEvent [d] s s = s := by
  have ended : endStopping s = s := if_neg fun ends => by
    have up := stopping ends.1
    rw [ends.2] at up
    cases up
  have pins : pinChanges [d] s s = [] := by
    simp only [pinChanges, List.flatMap_singleton, outputChanges_self]
  rw [closeEvent, ended, refreshDetectors_of_law detectors, logPins, pins, List.append_nil]

/-- R54: from OFF, with a target above it, the event begins the rise. -/
theorem takeStep_rise (at_ : (s.engine d).state = .off) (up : s.target d ≠ .off) (known : s.record d ≠ none) :
    takeStep d s = beginRise d s := by
  rw [takeStep_of_level (level := .off) at_, beginStep_off, if_pos ⟨up, known⟩]

/-- R53: from a level with the rail on, the event goes on towards the target. -/
theorem comesTo_takeStep {r : DomainRecord} {level : Level} (at_ : (s.engine d).state = level.engineState)
    (up : level ≠ .off) (fits : s.fits d r level) (away : s.target d ≠ level) :
    ComesTo s (takeStep d s) d (chainFrom r (s.target d) (s.ckokSeen d) level) := by
  have near : level.apart (s.target d) ≤ Config.chainBound + 1 := by
    have := num_le_boost level
    have := num_le_boost (s.target d)
    simp only [Level.apart, Config.chainBound, Level.num] at *
    omega
  rw [takeStep_of_level at_]
  exact comesTo_beginStep up (comesWithin_arriveWithin d r Config.chainBound) fits at_ (fun there => absurd there away) near

/-- Settles O45: the step-begin event is followed by the engine state it finds. -/
theorem stepBeginReadsTheTarget : Obligations.StepBeginReadsTheTarget := by
  intro s d running ranges
  refine ⟨fun still detectors stopping => ?_, fun at_ up known => ?_, fun r level at_ up fits away => ?_,
    fun at_ off => ?_, fun at_ off => ?_⟩
  · rw [exec_stepBegin running, takeStep_not_due still, closeEvent_self detectors stopping]
  · have side := engineSide_beginRise d s
    have ⟨risen, queued, others, reports, units⟩ := reads_beginRise s d
    have ⟨reports', units', queue'⟩ := reads_closeEvent [d] s (beginRise d s)
    have rising : ((beginRise d s).engine d).down = false := by
      rw [risen]
      exact down_of_stands (risesTo_stands s d)
    refine ⟨_, exec_stepBegin running, ?_⟩
    rw [takeStep_rise at_ up known, engine_closeEvent, partState_closeEvent_of_up [d] rising, reports', units', queue']
    exact ⟨risen, queued, others, reports, units, side.partState, engineFrame_closeEvent d side⟩
  · have comes := comesTo_takeStep at_ up fits away
    have ⟨_, units, queue⟩ := reads_closeEvent [d] s (takeStep d s)
    refine ⟨_, exec_stepBegin running, ?_, units.trans comes.units, ?_, engineFrame_closeEvent d comes.side⟩
    · exact goesOn_congr (engine_closeEvent _ s _) (report_closeEvent _ s _) queue
        ⟨comes.engine, comes.children, comes.reports⟩
    · rw [partState_closeEvent_of_up [d] (up_of_engineAt up comes.engine), comes.side.partState]
  · have step : takeStep d s = arrive d .off s := by
      unfold takeStep
      rw [at_]
      exact if_pos off
    refine ⟨_, exec_stepBegin running, ?_⟩
    rw [step]
    exact arrivesAtOff_arrive ranges (by rw [at_]; nofun)
  · have step : takeStep d s = arrive d .off (withdraw d s) := by
      unfold takeStep
      rw [at_]
      exact if_pos off
    refine ⟨_, exec_stepBegin running, ?_⟩
    rw [step]
    exact arrivesAtOff_arrive (s := withdraw d s) ranges (ne_of_eq_of_ne at_ nofun)

end

end Sys2Proof.Machine
end
